-- ==== Sys2Proof/Word.lean ====
section
/-! DEFINITION. The byte, the only word the block moves (00_scope.md R13, 20_memory.md R56). -/

namespace Sys2Proof

/-- R13: an 8-bit unsigned value; bit 7 is the most significant. -/
abbrev Byte := BitVec 8

/-- The 16-bit number `hi * 256 + lo`: the header value of R16 and the packing of R109 and R192. -/
abbrev pack (hi lo : Byte) : BitVec 16 := hi ++ lo

end Sys2Proof
end

