-- ==== Sys2Proof/Config.lean ====
section
/-! DEFINITION. The implementation parameters of 00_scope.md section 4 and the one free value of the model.
The parameters are static (70_reset_and_hazards.md R223); State holds one set of them, so that a claim about every
state is a claim about every parameter set. -/

namespace Sys2Proof

/-- R12: how the receive state recognises the end of a reply. -/
inductive FooterMatch where
  | literal      -- the last two raw bytes are the footer; the default
  | unpairedDle  -- and the footer's `10` is not the second byte of an escape pair
deriving DecidableEq, Repr

/-- R5 to R12. Times are counted in ticks. -/
structure Params where
  /-- R5: retries after the first attempt. -/
  nRetry : Nat
  /-- R6: step-1 timeout. -/
  tAck : Nat
  /-- R7: step-2 timeout. -/
  tEcho : Nat
  /-- R8: step-3 receive budget. -/
  tRx : Nat
  /-- R9: inter-attempt delay. -/
  tDelay : Nat
  /-- R10: capacity of the receive buffer. -/
  maxRx : Nat
  /-- R11: the largest number of value bytes of a WRITE. -/
  maxWdata : Nat
  /-- R12. -/
  footerMatch : FooterMatch
deriving DecidableEq, Repr

/-- The constraints of R5 to R11. -/
def Params.ok (p : Params) : Bool :=
  decide (1 ≤ p.nRetry) && decide (1 ≤ p.tAck) && decide (1 ≤ p.tEcho) && decide (1 ≤ p.tRx) &&
  decide (1 ≤ p.tDelay) && decide (5 ≤ p.maxRx)

/-- R11: the size of the request frame buffer, `2 * MAX_WDATA + 12` bytes. -/
def Params.txfMax (p : Params) : Nat := 2 * p.maxWdata + 12

/-- R18: the longest of the four times, which gives `timer` its width. -/
def Params.maxTime (p : Params) : Nat := max (max p.tAck p.tEcho) (max p.tRx p.tDelay)

/-- The parameter set P-std of 95_test_vectors.md. DESIGN CHOICE (log entry 7), unsafe: the spec leaves every number
open; only LITERAL is the spec's own default (R12). -/
def Params.std : Params where
  nRetry := 2
  tAck := 4
  tEcho := 4
  tRx := 64
  tDelay := 2
  maxRx := 64
  maxWdata := 8
  footerMatch := .literal

/-- The least `k` from `k` up with `n ≤ 2 ^ k`, tried `fuel` times. -/
def clog2From (n : Nat) : Nat → Nat → Nat
  | 0, k => k
  | fuel + 1, k => if n ≤ 2 ^ k then k else clog2From n fuel (k + 1)

/-- `ceil(log2 n)`, the width of a port or register that holds the values 0 to n - 1 (R18, R21, R27). -/
def clog2 (n : Nat) : Nat := clog2From n n 0

/-- What `err_info` holds for a byte count that needs more than its 16 bits: the spec gives the register 16 bits (R192)
and the buffer no upper size (R10), and does not say. A free value; DESIGN CHOICE (log entry 9), safe. -/
opaque Config.wideCount : Nat → BitVec 16

end Sys2Proof
end

