-- ==== Sys2Proof/Syntax.lean ====
section
/-! DEFINITION. The syntax: one constructor of `Instr` per row of spec/opcode_table.json, and the words the rows are read
from. The block has no instruction words (30_encoding.md); a row is a code of the request port or of the wire. -/

namespace Sys2Proof

/-- The input signals of the request port (10_state.md R21). -/
structure Request where
  /-- `req_kind`: 0 = READ, 1 = WRITE (R80). -/
  kind : BitVec 1
  /-- `req_cmd_len`. -/
  cmdLen : BitVec 2
  /-- `req_cmd[0]`, first on the wire. -/
  cmd0 : Byte
  /-- `req_cmd[1]`. -/
  cmd1 : Byte
  /-- `req_cmd[2]`. -/
  cmd2 : Byte
  /-- `req_wlen`. -/
  wlen : Nat
  /-- `req_wdata`, the `MAX_WDATA` bytes of the value bus, `req_wdata[0]` first. -/
  wdata : List Byte
deriving DecidableEq, Repr

/-- Where on the wire a byte sequence stands: the same byte means another row in another place (opcode_table.json,
"format"), and `st` says which place a cycle reads (10_state.md R26). -/
inductive Slot where
  | stxOut   -- CTL (sent, step 1): the byte sent in TX_STX
  | ackIn    -- CTL (received, step 1): a byte received in W_ACK
  | frame    -- FRAME (sent): a whole request frame
  | echo     -- CTL (received, step 2): received in W_ECHO
  | echo2    -- CTL (received, step 2): received in W_ECHO2
  | dleReq   -- CTL (sent, step 3): the byte sent in TX_DLE_REQ
  | data     -- a byte received in RX that completes no pair and no reply
  | pair     -- ESC (inside escape region) and FRAME end: two raw bytes of a frame
  | ackOut   -- CTL (sent, step 4): the byte sent in TX_DLE_ACK
  | reply    -- FRAME (received): a whole raw reply
deriving DecidableEq, Repr

/-- What the decoder reads: the request port's signals, or bytes at a place on the wire. -/
inductive Code where
  | port (r : Request)
  | wire (slot : Slot) (bytes : List Byte)
deriving DecidableEq, Repr

/-- One constructor per row of spec/opcode_table.json, in the table's order. -/
inductive Instr where
  /-- READ (R125): command length and the three command bytes of the port; the other signals are ignored (R80). -/
  | read (cmdLen : BitVec 2) (cmd0 cmd1 cmd2 : Byte)
  /-- WRITE (R126): the same, the number of value bytes and the value bus. -/
  | write (cmdLen : BitVec 2) (cmd0 cmd1 cmd2 : Byte) (wlen : Nat) (wdata : List Byte)
  /-- FRM_GET_REQ (R122): the request frame `01 00`, its payload the register command. -/
  | frmGetReq (cmd : List Byte)
  /-- FRM_SET_REQ (R123): the request frame `01 80`, its payload the register command and the value bytes. -/
  | frmSetReq (payload : List Byte)
  /-- RPL_GET_OK (R132), on the unescaped frame: checksum byte, payload and the two bytes in the footer's place. -/
  | rplGetOk (cs : Byte) (payload : List Byte) (foot0 foot1 : Byte)
  /-- RPL_SET_ACK (R133), on the unescaped frame: everything after the header. -/
  | rplSetAck (rest : List Byte)
  /-- RPL_ERR_TIMING (R134): header `01 01`; the rest is not examined. -/
  | rplErrTiming (rest : List Byte)
  /-- RPL_ERR_CHECKSUM (R134): header `01 02`; the rest is not examined. -/
  | rplErrChecksum (rest : List Byte)
  /-- RPL_ERR_UNKNOWN_CMD (R134): header `01 03`; the rest is not examined. -/
  | rplErrUnknownCmd (rest : List Byte)
  /-- RPL_ERR_UNKNOWN_REG (R134): header `01 04`; the rest is not examined. -/
  | rplErrUnknownReg (rest : List Byte)
  /-- RPL_UNKNOWN_HEADER (R135): any other header. -/
  | rplUnknownHeader (h0 h1 : Byte) (rest : List Byte)
  /-- CTL_STX_OUT (R154): the STX the block sends in step 1. -/
  | ctlStxOut
  /-- CTL_DLE_ACK_IN (R155): the device's DLE in step 1. -/
  | ctlDleAckIn
  /-- CTL_NAK (R155, R157, R158): the device's rejection in step 1 or 2. -/
  | ctlNak
  /-- CTL_ECHO_DLE_STX (R157, R158): `10 02` in step 2, one byte a cycle. -/
  | ctlEchoDleStx
  /-- CTL_ECHO_STX (R157): a bare `02` in step 2. -/
  | ctlEchoStx
  /-- CTL_DLE_REQ (R159): the DLE the block sends in step 3. -/
  | ctlDleReq
  /-- CTL_DLE_ACK_OUT (R163): the DLE the block sends in step 4. -/
  | ctlDleAckOut
  /-- ESC_DLE (R102, R105): the pair `10 10` for the data byte `10`. -/
  | escDle
  /-- ESC_2B (R102, R105): the pair `2B 18` for the data byte `2B`. -/
  | esc2B
  /-- FOOTER (R72, R166): `10 03`, the end of every frame. -/
  | footer
deriving DecidableEq, Repr

end Sys2Proof
end

