-- ==== Sys2Proof/Machine/Codec.lean ====
section
/-! DEFINITION. The codec (40_codec.md) and the frame builder (41_frame.md section 2): pure functions on byte
sequences, and the constants of the wire (30_encoding.md R71 to R74). -/

namespace Sys2Proof.Machine

/-- R73: STX. -/
def stx : Byte := 0x02#8
/-- R73: DLE; also the escape byte and the first footer byte. -/
def dle : Byte := 0x10#8
/-- R73: NAK. -/
def nak : Byte := 0x15#8
/-- R74: the other escaped byte. -/
def esc2b : Byte := 0x2B#8
/-- R74: the second byte of the pair that stands for `2B`. -/
def esc18 : Byte := 0x18#8
/-- R72: the second footer byte. -/
def foot3 : Byte := 0x03#8

/-- R71: `01 00`. -/
def hdrGet : List Byte := [0x01#8, 0x00#8]
/-- R71: `01 80`. -/
def hdrSet : List Byte := [0x01#8, 0x80#8]
/-- R72: `10 03`. -/
def footerBytes : List Byte := [dle, foot3]

/-- R100: the sum of the bytes modulo 256. -/
def checksum : List Byte → Byte
  | [] => 0#8
  | a :: s => a + checksum s

/-- R102: one byte of the escape region as it is sent. -/
def escapeByte (a : Byte) : List Byte :=
  if a = dle then [dle, dle] else if a = esc2b then [esc2b, esc18] else [a]

/-- R102: every byte on its own, left to right. -/
def escape : List Byte → List Byte
  | [] => []
  | a :: s => escapeByte a ++ escape s

/-- R105: left to right, a matched pair consumed whole; any other byte passes (R106). -/
def unescape : List Byte → List Byte
  | [] => []
  | [a] => [a]
  | a :: b :: r =>
    if a = dle ∧ b = dle then dle :: unescape r
    else if a = esc2b ∧ b = esc18 then esc2b :: unescape r
    else a :: unescape (b :: r)

/-- R121: the checksum with its own position read as zero, then the frame; header and footer are not escaped. -/
def build (hdr p : List Byte) : List Byte :=
  hdr ++ escape (checksum (hdr ++ [0#8] ++ p) :: p) ++ footerBytes

/-- R122. -/
def buildRead (cmd : List Byte) : List Byte := build hdrGet cmd

/-- R123. -/
def buildWrite (cmd val : List Byte) : List Byte := build hdrSet (cmd ++ val)

/-- A raw reply or a received frame as it stands on the wire: header, escaped middle, the last two bytes as they are
(R70, R108). `rest` is everything after the header, unescaped. -/
def wireFrame (h0 h1 : Byte) (rest : List Byte) : List Byte :=
  [h0, h1] ++ escape (rest.take (rest.length - 2)) ++ rest.drop (rest.length - 2)

/-- The escape pair whose second byte is the LAST byte of `raw`, when `raw` is scanned as R105 scans it. -/
def lastPair : List Byte → Option (Byte × Byte)
  | [] => none
  | [_] => none
  | [a, b] => if (a = dle ∧ b = dle) ∨ (a = esc2b ∧ b = esc18) then some (a, b) else none
  | a :: b :: c :: r =>
    if (a = dle ∧ b = dle) ∨ (a = esc2b ∧ b = esc18) then lastPair (c :: r) else lastPair (b :: c :: r)

/-- The escape pair that the byte at index `i` of an escaped sequence belongs to, when it is scanned as R105 scans it. -/
def pairAt : List Byte → Nat → Option (Byte × Byte)
  | [], _ => none
  | [_], _ => none
  | a :: b :: r, i =>
    if (a = dle ∧ b = dle) ∨ (a = esc2b ∧ b = esc18) then
      if i ≤ 1 then some (a, b) else pairAt r (i - 2)
    else if i = 0 then none else pairAt (b :: r) (i - 1)

/-- The pair of R72 or R74 that byte `i` of a frame belongs to: the footer, or an escape pair of the escaped middle. -/
def framePair (f : List Byte) (i : Nat) : Option (Byte × Byte) :=
  if f.length ≤ i + 2 then
    if f.drop (f.length - 2) = footerBytes then some (dle, foot3) else none
  else if i < 2 then none
  else pairAt ((f.drop 2).take (f.length - 4)) (i - 2)

end Sys2Proof.Machine
end

