-- ==== Sys2Proof/Machine/Memory.lean ====
section
/-! DEFINITION. The byte buffers of 20_memory.md R50: a list of cells in one canonical form. -/

namespace Sys2Proof.Machine

/-- A buffer: (index, byte) cells, indices strictly rising. An index that is not listed has no value (10_state.md R43,
R44), so no cell can equal what an unlisted index reads as. -/
abbrev Memory := List Host.Cell

/-- The canonical form: indices strictly rising. -/
def Memory.wf : Memory → Bool
  | [] => true
  | [_] => true
  | (i, _) :: (j, b) :: m => decide (i < j) && Memory.wf ((j, b) :: m)

/-- The byte at an index, if it has a value. -/
def Memory.read : Memory → Nat → Option Byte
  | [], _ => none
  | (j, b) :: m, i => if i = j then some b else Memory.read m i

/-- The byte at an index becomes `v`. -/
def Memory.write : Memory → Nat → Byte → Memory
  | [], i, v => [(i, v)]
  | (j, b) :: m, i, v =>
    if i < j then (i, v) :: (j, b) :: m
    else if i = j then (i, v) :: m
    else (j, b) :: Memory.write m i v

/-- `MemRead(buf, i, n)` of R15, if every byte has a value. -/
def Memory.readRange (m : Memory) (i : Nat) : Nat → Option (List Byte)
  | 0 => some []
  | n + 1 =>
    match m.read i, Memory.readRange m (i + 1) n with
    | some b, some bs => some (b :: bs)
    | _, _ => none

/-- The cells of a sequence laid from index `i` on. -/
def Memory.cellsFrom (i : Nat) : List Byte → Memory
  | [] => []
  | b :: bs => (i, b) :: Memory.cellsFrom (i + 1) bs

/-- `MemWrite(buf, 0, len(s), s)` of R15 into a buffer whose old bytes have no value. -/
def Memory.ofBytes (s : List Byte) : Memory := Memory.cellsFrom 0 s

/-- The buffer gives a value to exactly the indices below `n`. -/
def Memory.covers (m : Memory) (n : Nat) : Bool := m.map Prod.fst == List.range n

end Sys2Proof.Machine
end

