-- ==== Sys2Proof/Machine/State.lean ====
section
/-! DEFINITION. The state of the block, of the channel and of the environment, as plain data; the machine after reset. -/

namespace Sys2Proof.Machine

/-- `st`, the handshake state register (R26). The codes 12 to 15 do not exist (93 U3). -/
inductive St where
  | idle | txStx | wAck | txFrame | wEcho | wEcho2 | txDleReq | rx | txDleAck | retryWait | flush | done
deriving DecidableEq, Repr

/-- Result codes (R190). The codes 11 to 15 do not exist (93 U4). -/
inductive Result where
  | ok | handshakeTimeout | handshakeRejected | frameTooShort | checksumMismatch | devTimingError | devChecksumError
  | devUnknownCommand | devUnknownRegister | unknownHeader | badRequest
deriving DecidableEq, Repr

/-- `err_step` (R191): no step, or the step of the handshake the error arose in. 5 to 7 do not exist (93 U4). -/
inductive ErrStep where
  | none | step1 | step2 | step3 | step4
deriving DecidableEq, Repr

/-- The buffers of R50 that a caller or a rule reads by index. -/
inductive Buffer where
  | txf | rxb | respData
deriving DecidableEq, Repr

/-- The input ports in one cycle (R21 to R25) and what the environment does to the channel in it. -/
structure Inputs where
  /-- `rst` (R25). -/
  rst : Bool
  /-- `tick` (R24). -/
  tick : Bool
  /-- `req_valid` (R21). -/
  reqValid : Bool
  /-- The request fields (R21), read only in the cycle of acceptance (R65). -/
  req : Request
  /-- `resp_ack` (R22). -/
  respAck : Bool
  /-- `tx_ready` (R23). -/
  txReady : Bool
  /-- The channel offers the oldest byte it holds, if it holds one: `rx_valid` (R23). -/
  rxOffer : Bool
  /-- Bytes that reach the channel from the device at the end of this cycle, in order (R61). -/
  arrive : List Byte
  /-- How many of the bytes the channel has accepted it puts on the line at the end of this cycle. -/
  drain : Nat
deriving DecidableEq, Repr

/-- Every input 0: what the ports carry when the list of inputs is at its end. DESIGN CHOICE (log entry 4). -/
def Inputs.quiet : Inputs where
  rst := false
  tick := false
  reqValid := false
  req := { kind := 0#1, cmdLen := 0#2, cmd0 := 0#8, cmd1 := 0#8, cmd2 := 0#8, wlen := 0, wdata := [] }
  respAck := false
  txReady := false
  rxOffer := false
  arrive := []
  drain := 0

/-- All the spec gives the machine. -/
structure State where
  /-- The static parameters (R223). -/
  par : Params
  /-- R26. -/
  st : St
  /-- R27: the request frame; only `txf[0..txfLen)` has values (R44). -/
  txf : Memory
  /-- R27. -/
  txfLen : Nat
  /-- R27: the index of the next frame byte to send. -/
  txIdx : Nat
  /-- R29: ticks counted. -/
  timer : Nat
  /-- R30. -/
  attempt : Nat
  /-- R31: the raw bytes of step 3; only `rxb[0..rxLen)` has values (R44). -/
  rxb : Memory
  /-- R31. -/
  rxLen : Nat
  /-- R32: the only flag. -/
  rxOvf : Bool
  /-- R33. -/
  lastErr : Result
  /-- R34. -/
  errStep : ErrStep
  /-- R35. -/
  errInfo : BitVec 16
  /-- R36. -/
  respCode : Result
  /-- R37: the payload; only `respData[0..respLen)` has values (R44). -/
  respData : Memory
  /-- R37. -/
  respLen : Nat
  /-- R42: bytes the channel holds from the device, oldest first. -/
  chRx : List Byte
  /-- R42: bytes the channel accepted from the block and has not put on the line, oldest first. -/
  chTx : List Byte
  /-- The model's record of the bytes put on the line, oldest first (log entry 16). -/
  line : List Byte
  /-- The inputs of this cycle and of those that follow. -/
  env : List Inputs
deriving DecidableEq, Repr

/-- Why a step stops. No state that a run reaches from reset stops so. -/
inductive Fault where
  /-- A read of a buffer byte at or beyond its length register: no defined value (R44, 93 U1). Raised by the operations
  that read a buffer and by the caller's reads. Safe: the spec forbids any value. -/
  | undefinedByte (b : Buffer) (index : Nat)
  /-- An access at or beyond the size of a buffer (R50). Safe: there is no such byte. -/
  | outsideBuffer (b : Buffer) (index : Nat)
deriving DecidableEq, Repr

/-- Why an instruction has no meaning. -/
inductive Refusal where
  /-- The instruction has no meaning yet. Raised by `exec` alone. Safe. -/
  | notModelled (mnemonic : String)
  /-- A WRITE whose value bus list is shorter than the `req_wlen` it offers: no state of the port of R21. Raised by
  WRITE. Safe (log entry 13). -/
  | shortBus
deriving DecidableEq, Repr

/-- Right after reset (R43): buffers without values, every length, index, counter and flag 0. The parameters are P-std
(log entry 7), the channel is empty (log entry 6), the environment does nothing (log entry 4). -/
def State.reset : State where
  par := Params.std
  st := .idle
  txf := []
  txfLen := 0
  txIdx := 0
  timer := 0
  attempt := 0
  rxb := []
  rxLen := 0
  rxOvf := false
  lastErr := .ok
  errStep := .none
  errInfo := 0#16
  respCode := .ok
  respData := []
  respLen := 0
  chRx := []
  chTx := []
  line := []
  env := []

end Sys2Proof.Machine
end

