-- ==== Sys2Proof/Machine/Flags.lean ====
section
/-! DEFINITION. The conditions the block computes: receive completion (R166), the overflow condition of its only flag
(R161), the numeric codes of its status registers (R26, R190, R191). -/

namespace Sys2Proof.Machine

/-- R166: the number of `10` bytes that stand together just before the last byte. -/
def dleRun (s : List Byte) : Nat := ((s.reverse.drop 1).takeWhile (· == dle)).length

/-- R166: the first byte is `01` and the last two are the footer; with UNPAIRED_DLE the footer's `10` also ends an odd run
of `10` bytes. -/
def rxDone (fm : FooterMatch) (s : List Byte) : Bool :=
  decide (3 ≤ s.length) && s.getD 0 0#8 == 0x01#8 &&
  s.getD (s.length - 2) 0#8 == dle && s.getD (s.length - 1) 0#8 == foot3 &&
  match fm with
  | .literal => true
  | .unpairedDle => dleRun s % 2 == 1

/-- R161: a byte that arrives now finds the receive buffer full. -/
def rxFull (s : State) : Bool := !decide (s.rxLen < s.par.maxRx)

/-- R26. -/
def St.code : St → BitVec 4
  | .idle => 0#4
  | .txStx => 1#4
  | .wAck => 2#4
  | .txFrame => 3#4
  | .wEcho => 4#4
  | .wEcho2 => 5#4
  | .txDleReq => 6#4
  | .rx => 7#4
  | .txDleAck => 8#4
  | .retryWait => 9#4
  | .flush => 10#4
  | .done => 11#4

/-- R190. -/
def Result.code : Result → BitVec 4
  | .ok => 0#4
  | .handshakeTimeout => 1#4
  | .handshakeRejected => 2#4
  | .frameTooShort => 3#4
  | .checksumMismatch => 4#4
  | .devTimingError => 5#4
  | .devChecksumError => 6#4
  | .devUnknownCommand => 7#4
  | .devUnknownRegister => 8#4
  | .unknownHeader => 9#4
  | .badRequest => 10#4

/-- R191. -/
def ErrStep.code : ErrStep → BitVec 3
  | .none => 0#3
  | .step1 => 1#3
  | .step2 => 2#3
  | .step3 => 3#3
  | .step4 => 4#3

end Sys2Proof.Machine
end

