-- ==== Sys2Proof/Machine/Operands.lean ====
section
/-! DEFINITION. Operand assembly: the operands of a request (41_frame.md R120, R126, R127) and the contents of `err_info`
(60_exceptions.md R192). -/

namespace Sys2Proof.Machine

/-- R120: `req_cmd[0..req_cmd_len)`. -/
def cmdBytes (n : BitVec 2) (c0 c1 c2 : Byte) : List Byte := [c0, c1, c2].take n.toNat

/-- R127 for a READ. -/
def readWellFormed (n : BitVec 2) : Bool := decide (1 ≤ n.toNat) && decide (n.toNat ≤ 3)

/-- R127 for a WRITE. -/
def writeWellFormed (p : Params) (n : BitVec 2) (wlen : Nat) : Bool :=
  readWellFormed n && decide (wlen ≤ p.maxWdata)

/-- R126: `req_wdata[0..req_wlen)`, if the bus list has that many bytes. -/
def valueBytes (wlen : Nat) (wdata : List Byte) : Option (List Byte) :=
  if wlen ≤ wdata.length then some (wdata.take wlen) else none

/-- R192: a byte, zero-extended. -/
def byteInfo (b : Byte) : BitVec 16 := pack 0#8 b

/-- R192: a byte count. A count that needs more than 16 bits gives a free value (log entry 9). -/
def countInfo (n : Nat) : BitVec 16 := if n < 65536 then BitVec.ofNat 16 n else Config.wideCount n

end Sys2Proof.Machine
end

