-- ==== Sys2Proof/Machine/Frame.lean ====
section
/-! DEFINITION. The frame parser (41_frame.md section 3), on the raw bytes of a reply. -/

namespace Sys2Proof.Machine

/-- What PARSE answers (R130): the code, the data (empty unless the code is OK), and the detail for `err_info`. -/
structure Parsed where
  code : Result
  data : List Byte
  info : BitVec 16
deriving DecidableEq, Repr

/-- R14: `s[i..j)`. -/
def slice (s : List Byte) (i j : Nat) : List Byte := (s.take j).drop i

/-- R132: the checksum of a GET reply, over all of it but the checksum position and the footer. -/
def replyChecksum (u : List Byte) : Byte := checksum (slice u 0 2 ++ slice u 3 (u.length - 2))

/-- R130, R131: unescape, then length, then header, then checksum. -/
def parse (r : List Byte) : Parsed :=
  let u := unescape r
  let n := u.length
  if n < 5 then ⟨.frameTooShort, [], countInfo n⟩
  else
    let h := pack (u.getD 0 0#8) (u.getD 1 0#8)
    if h = 0x0100#16 then
      if replyChecksum u = u.getD 2 0#8 then ⟨.ok, slice u 3 (n - 2), 0#16⟩
      else ⟨.checksumMismatch, [], pack (replyChecksum u) (u.getD 2 0#8)⟩
    else if h = 0x0180#16 then ⟨.ok, slice u 2 n, 0#16⟩
    else if h = 0x0101#16 then ⟨.devTimingError, [], h⟩
    else if h = 0x0102#16 then ⟨.devChecksumError, [], h⟩
    else if h = 0x0103#16 then ⟨.devUnknownCommand, [], h⟩
    else if h = 0x0104#16 then ⟨.devUnknownRegister, [], h⟩
    else ⟨.unknownHeader, [], h⟩

end Sys2Proof.Machine
end

