-- ==== Sys2Proof/Machine/Ops.lean ====
section
/-! DEFINITION. The named operations on the state that the meanings share. Each docstring names the rule it transcribes. A
length register that becomes 0 takes the values of its buffer's bytes with it (R44). -/

namespace Sys2Proof.Machine

/-- An outcome in this machine. -/
abbrev Answer := Host.Outcome State Fault Refusal

/-- Go on with the next state; a fault or a refusal ends here. -/
def andThen (o : Answer) (f : State → Answer) : Answer :=
  match o with
  | .next s => f s
  | .fault r => .fault r
  | .refused r => .refused r

/-! ### Ports -/

/-- The inputs of this cycle. -/
def State.inp (s : State) : Inputs := s.env.headD Inputs.quiet

/-- R38: `tx_valid`. -/
def txValid (s : State) : Bool :=
  match s.st with
  | .txStx => true
  | .txFrame => true
  | .txDleReq => true
  | .txDleAck => true
  | _ => false

/-- R44: the byte a buffer gives at an index below its length register. -/
def definedByte (m : Memory) (len i : Nat) : Option Byte := if i < len then m.read i else none

/-- R38: `tx_data`; no value where TX_FRAME points beyond the frame (R44). -/
def txData (s : State) : Option Byte :=
  match s.st with
  | .txStx => some stx
  | .txFrame => definedByte s.txf s.txfLen s.txIdx
  | .txDleReq => some dle
  | .txDleAck => some dle
  | _ => some 0#8

/-- R38: `rx_ready`. -/
def rxReady (s : State) : Bool :=
  match s.st with
  | .wAck => true
  | .wEcho => true
  | .wEcho2 => true
  | .rx => true
  | _ => false

/-- R38: `ch_flush`. -/
def chFlush (s : State) : Bool := s.st == .flush

/-- R38: `req_ready`. -/
def reqReady (s : State) : Bool := s.st == .idle

/-- R38: `resp_valid`. -/
def respValid (s : State) : Bool := s.st == .done

/-- R151: a byte is sent in this cycle. -/
def sent (s : State) : Bool := txValid s && s.inp.txReady

/-- R23: the byte the channel offers in this cycle, if any: `rx_valid` and `rx_data`. -/
def rxOffered (s : State) : Option Byte := if s.inp.rxOffer then s.chRx.head? else none

/-- R151: the byte received in this cycle, if any. -/
def got (s : State) : Option Byte := if rxReady s then rxOffered s else none

/-- The outputs of the block (R22, R38). The two byte buses carry only the bytes that have a value. -/
structure Outputs where
  reqReady : Bool
  respValid : Bool
  txValid : Bool
  txData : Option Byte
  rxReady : Bool
  chFlush : Bool
  respCode : BitVec 4
  respLen : Nat
  respData : Memory
  errStep : BitVec 3
  errInfo : BitVec 16
  lastErr : BitVec 4
  attempt : Nat
  rxLen : Nat
  rxRaw : Memory
  rxOvf : Bool
deriving DecidableEq, Repr

/-- R38: every output is a function of the registers. -/
def outputs (s : State) : Outputs where
  reqReady := reqReady s
  respValid := respValid s
  txValid := txValid s
  txData := txData s
  rxReady := rxReady s
  chFlush := chFlush s
  respCode := s.respCode.code
  respLen := s.respLen
  respData := s.respData.filter fun c => decide (c.1 < s.respLen)
  errStep := s.errStep.code
  errInfo := s.errInfo
  lastErr := s.lastErr.code
  attempt := s.attempt
  rxLen := s.rxLen
  rxRaw := s.rxb.filter fun c => decide (c.1 < s.rxLen)
  rxOvf := s.rxOvf

/-- A caller's read of one byte of a bus of `size` bytes (R22, R50): a byte beyond the length register has no value. -/
def busRead (b : Buffer) (m : Memory) (size len i : Nat) : Host.Outcome Byte Fault Refusal :=
  if size ≤ i then .fault (.outsideBuffer b i)
  else
    match definedByte m len i with
    | some v => .next v
    | none => .fault (.undefinedByte b i)

/-- The caller's read of `rx_raw[i]` (R31, R44). -/
def readRxRaw (s : State) (i : Nat) : Host.Outcome Byte Fault Refusal := busRead .rxb s.rxb s.par.maxRx s.rxLen i

/-- The caller's read of `resp_data[i]` (R37, R44). -/
def readRespData (s : State) (i : Nat) : Host.Outcome Byte Fault Refusal :=
  busRead .respData s.respData s.par.maxRx s.respLen i

/-- `rxb[0..rx_len)` as a sequence, if every byte has a value. -/
def rxBytes (s : State) : Option (List Byte) := s.rxb.readRange 0 s.rxLen

/-- `txf[0..txf_len)` as a sequence, if every byte has a value. -/
def txBytes (s : State) : Option (List Byte) := s.txf.readRange 0 s.txfLen

/-! ### Errors: entry, and the retry that is the return from one -/

/-- R171, R196: the end of an attempt in steps 1 to 3. What is saved: the error, its step, its detail. Where control goes:
RETRY_WAIT with a fresh timer while a retry remains, else DONE with the error as the result. `rxb` and `rx_ovf` stay. -/
def abort (e : Result) (k : ErrStep) (info : BitVec 16) (s : State) : State :=
  if s.attempt ≤ s.par.nRetry then
    { s with lastErr := e, errStep := k, errInfo := info, timer := 0, st := .retryWait }
  else
    { s with lastErr := e, errStep := k, errInfo := info, respCode := e, respData := [], respLen := 0, st := .done }

/-- R165, R197: FLUSH, the return to TX_STX for the next attempt, with the same frame. -/
def retryRestart (s : State) : State :=
  { s with attempt := s.attempt + 1, rxb := [], rxLen := 0, rxOvf := false, st := .txStx }

/-- R168: one tick of a timed step. -/
def count (limit : Nat) (k : ErrStep) (info : BitVec 16) (s : State) : State :=
  if limit ≤ s.timer + 1 then abort .handshakeTimeout k info s else { s with timer := s.timer + 1 }

/-- R168, R169: the tick of this cycle, if there is one, in a step that goes on. -/
def countTick (limit : Nat) (k : ErrStep) (info : BitVec 16) (s : State) : State :=
  if s.inp.tick then count limit k info s else s

/-! ### Requests -/

/-- R153: acceptance of a well-formed request with header `hdr` and payload `p`. -/
def accept (hdr p : List Byte) (s : State) : State :=
  { s with
    txf := Memory.ofBytes (build hdr p), txfLen := (build hdr p).length, txIdx := 0, timer := 0, attempt := 1,
    rxb := [], rxLen := 0, rxOvf := false, respCode := .ok, respData := [], respLen := 0,
    lastErr := .ok, errStep := .none, errInfo := 0#16, st := .txStx }

/-- R152: a request that is not well-formed ends at once. -/
def refuseRequest (s : State) : State :=
  { s with
    respCode := .badRequest, lastErr := .badRequest, errStep := .none, errInfo := 0#16,
    respData := [], respLen := 0, rxb := [], rxLen := 0, rxOvf := false, attempt := 0, st := .done }

/-! ### Sending and receiving -/

/-- R154: STX was sent. -/
def stxSent (s : State) : State := { s with timer := 0, st := .wAck }

/-- R155: step 1 is acknowledged. -/
def ackReceived (s : State) : State := { s with txIdx := 0, st := .txFrame }

/-- R156: one byte of the frame was sent. -/
def frameByteSent (s : State) : State :=
  if s.txIdx + 1 = s.txfLen then { s with timer := 0, st := .wEcho } else { s with txIdx := s.txIdx + 1 }

/-- R157, R158: the step-2 reply is complete. -/
def echoComplete (s : State) : State := { s with st := .txDleReq }

/-- R157, R169: the `10` of a split `10 02`; the step goes on, so a tick counts. -/
def echoBegun (s : State) : State := countTick s.par.tEcho .step2 0#16 { s with st := .wEcho2 }

/-- R159: the payload request was sent; step 3 starts with an empty buffer. -/
def requestSent (s : State) : State := { s with timer := 0, rxb := [], rxLen := 0, rxOvf := false, st := .rx }

/-- R155, R157, R158: a byte other than those awaited. -/
def rejectByte (k : ErrStep) (b : Byte) (s : State) : State := abort .handshakeRejected k (byteInfo b) s

/-- R160: the receive buffer with one more byte. -/
def storeByte (b : Byte) (s : State) : State := { s with rxb := s.rxb.write s.rxLen b, rxLen := s.rxLen + 1 }

/-- R160, R161, R162: one byte in RX. Completion first, then the tick; a byte that finds the buffer full is dropped and
ends the attempt. -/
def receiveByte (b : Byte) (s : State) : Answer :=
  if rxFull s then .next (abort .handshakeTimeout .step3 (countInfo s.rxLen) { s with rxOvf := true })
  else
    match rxBytes s with
    | none => .fault (.undefinedByte .rxb s.rxLen)
    | some old =>
      if rxDone s.par.footerMatch (old ++ [b]) then .next { storeByte b s with st := .txDleAck }
      else .next (countTick s.par.tRx .step3 (countInfo (s.rxLen + 1)) (storeByte b s))

/-- R163: the result of the reply, and DONE. The data goes to `resp_data`, which has MAX_RX bytes (R37, R50). -/
def finish (r : Parsed) (s : State) : Answer :=
  if r.data.length ≤ s.par.maxRx then
    .next { s with
      respCode := r.code, lastErr := r.code, errInfo := r.info,
      errStep := if r.code = .ok then .none else .step4,
      respData := Memory.ofBytes r.data, respLen := r.data.length, st := .done }
  else .fault (.outsideBuffer .respData s.par.maxRx)

/-- R163: parse what was received, and finish with it. -/
def finishReply (s : State) : Answer :=
  match rxBytes s with
  | none => .fault (.undefinedByte .rxb s.rxLen)
  | some raw => finish (parse raw) s

/-- R164: one tick of the inter-attempt delay. -/
def delayTick (s : State) : State :=
  if s.par.tDelay ≤ s.timer + 1 then { s with st := .flush } else { s with timer := s.timer + 1 }

/-- R167: the caller took the result. -/
def releaseResult (s : State) : State := { s with st := .idle }

/-! ### Reset and the environment's side of a cycle -/

/-- R220, R43: every register at its reset value. Parameters, channel and environment stay (R221, R223). -/
def resetBlock (s : State) : State :=
  { s with
    st := .idle, txf := [], txfLen := 0, txIdx := 0, timer := 0, attempt := 0, rxb := [], rxLen := 0, rxOvf := false,
    lastErr := .ok, errStep := .none, errInfo := 0#16, respCode := .ok, respData := [], respLen := 0 }

/-- R58, R61, R64, R175: what the channel holds from the device after the cycle. -/
def chRxNext (s : State) : List Byte :=
  (if chFlush s then [] else if (got s).isSome then s.chRx.drop 1 else s.chRx) ++ s.inp.arrive

/-- R61, R64: the bytes the channel has accepted from the block, with the byte `out` sent in this cycle. -/
def chTxAccepted (s : State) (out : List Byte) : List Byte := if chFlush s then [] else s.chTx ++ out

/-- The environment's side of the cycle that began in `s`, applied to the block's registers in `t`: the channel takes the
byte sent, gives up the byte received, discards on a flush, and the inputs move on. A byte sent without a defined value
faults (R44). -/
def closeCycle (s t : State) : Answer :=
  if sent s then
    match txData s with
    | some b =>
      .next { t with
        chRx := chRxNext s, chTx := (chTxAccepted s [b]).drop s.inp.drain,
        line := s.line ++ (chTxAccepted s [b]).take s.inp.drain, env := s.env.drop 1 }
    | none => .fault (.undefinedByte .txf s.txIdx)
  else
    .next { t with
      chRx := chRxNext s, chTx := (chTxAccepted s []).drop s.inp.drain,
      line := s.line ++ (chTxAccepted s []).take s.inp.drain, env := s.env.drop 1 }

end Sys2Proof.Machine
end

