-- ==== Sys2Proof/Machine/Cycle.lean ====
section
/-! DEFINITION. The step function of one cycle, R151, state by state as 42_handshake.md writes it (R152 to R167), on the
block's registers. It runs the cycles in which no code of the opcode table is handled; an obligation says that in every
other cycle it agrees with the meaning of the code. -/

namespace Sys2Proof.Machine

/-- R127. -/
def requestWellFormed (p : Params) (r : Request) : Bool :=
  decide (1 ≤ r.cmdLen.toNat) && decide (r.cmdLen.toNat ≤ 3) && (r.kind == 0#1 || decide (r.wlen ≤ p.maxWdata))

/-- R153: the header. -/
def requestHeader (r : Request) : List Byte := if r.kind = 0#1 then hdrGet else hdrSet

/-- R153: the payload, if the value bus has the bytes. -/
def requestPayload (r : Request) : Option (List Byte) :=
  if r.kind = 0#1 then some (cmdBytes r.cmdLen r.cmd0 r.cmd1 r.cmd2)
  else (valueBytes r.wlen r.wdata).map (cmdBytes r.cmdLen r.cmd0 r.cmd1 r.cmd2 ++ ·)

/-- R152, R153. -/
def ruleIdle (s : State) : Answer :=
  if s.inp.reqValid then
    if requestWellFormed s.par s.inp.req then
      match requestPayload s.inp.req with
      | some p => .next (accept (requestHeader s.inp.req) p s)
      | none => .refused .shortBus
    else .next (refuseRequest s)
  else .next s

/-- R154. -/
def ruleTxStx (s : State) : Answer := if sent s then .next (stxSent s) else .next s

/-- R155. -/
def ruleWAck (s : State) : Answer :=
  match got s with
  | some b => if b = dle then .next (ackReceived s) else .next (rejectByte .step1 b s)
  | none => .next (countTick s.par.tAck .step1 0#16 s)

/-- R156. -/
def ruleTxFrame (s : State) : Answer := if sent s then .next (frameByteSent s) else .next s

/-- R157. -/
def ruleWEcho (s : State) : Answer :=
  match got s with
  | some b =>
    if b = stx then .next (echoComplete s)
    else if b = dle then .next (echoBegun s)
    else .next (rejectByte .step2 b s)
  | none => .next (countTick s.par.tEcho .step2 0#16 s)

/-- R158. -/
def ruleWEcho2 (s : State) : Answer :=
  match got s with
  | some b => if b = stx then .next (echoComplete s) else .next (rejectByte .step2 b s)
  | none => .next (countTick s.par.tEcho .step2 0#16 s)

/-- R159. -/
def ruleTxDleReq (s : State) : Answer := if sent s then .next (requestSent s) else .next s

/-- R160, R161, R162. -/
def ruleRx (s : State) : Answer :=
  match got s with
  | some b => receiveByte b s
  | none => .next (countTick s.par.tRx .step3 (countInfo s.rxLen) s)

/-- R163. -/
def ruleTxDleAck (s : State) : Answer := if sent s then finishReply s else .next s

/-- R164. -/
def ruleRetryWait (s : State) : Answer := if s.inp.tick then .next (delayTick s) else .next s

/-- R165. -/
def ruleFlush (s : State) : Answer := .next (retryRestart s)

/-- R167. -/
def ruleDone (s : State) : Answer := if s.inp.respAck then .next (releaseResult s) else .next s

/-- R151: exactly one rule, by `st`. -/
def rule (s : State) : Answer :=
  match s.st with
  | .idle => ruleIdle s
  | .txStx => ruleTxStx s
  | .wAck => ruleWAck s
  | .txFrame => ruleTxFrame s
  | .wEcho => ruleWEcho s
  | .wEcho2 => ruleWEcho2 s
  | .txDleReq => ruleTxDleReq s
  | .rx => ruleRx s
  | .txDleAck => ruleTxDleAck s
  | .retryWait => ruleRetryWait s
  | .flush => ruleFlush s
  | .done => ruleDone s

/-- R151 whole: reset before everything (R195), else the state's rule; then the environment's side of the cycle. -/
def cycle (s : State) : Answer :=
  if s.inp.rst then closeCycle s (resetBlock s) else andThen (rule s) (closeCycle s)

end Sys2Proof.Machine
end

