-- ==== Sys2Proof/Machine/Control.lean ====
section
/-! DEFINITION. The control bytes of the handshake (30_encoding.md R73; 42_handshake.md R154 to R163). A byte the block
sends is sent only in its state (R38); a byte from the device is taken only in a wait state and stays in the channel
otherwise (R175). -/

namespace Sys2Proof.Machine

/-- CTL_STX_OUT: R154. -/
def execCtlStxOut (s : State) : Answer :=
  match s.st with
  | .txStx => .next (stxSent s)
  | _ => .next s

/-- CTL_DLE_ACK_IN: R155. -/
def execCtlDleAckIn (s : State) : Answer :=
  match s.st with
  | .wAck => .next (ackReceived s)
  | _ => .next s

/-- CTL_NAK: the rejection of R155 in step 1, of R157 and R158 in step 2. -/
def execCtlNak (s : State) : Answer :=
  match s.st with
  | .wAck => .next (rejectByte .step1 nak s)
  | .wEcho => .next (rejectByte .step2 nak s)
  | .wEcho2 => .next (rejectByte .step2 nak s)
  | _ => .next s

/-- CTL_ECHO_DLE_STX: its `10` in W_ECHO (R157), its `02` in W_ECHO2 (R158). -/
def execCtlEchoDleStx (s : State) : Answer :=
  match s.st with
  | .wEcho => .next (echoBegun s)
  | .wEcho2 => .next (echoComplete s)
  | _ => .next s

/-- CTL_ECHO_STX: the bare STX of R157. -/
def execCtlEchoStx (s : State) : Answer :=
  match s.st with
  | .wEcho => .next (echoComplete s)
  | _ => .next s

/-- CTL_DLE_REQ: R159. -/
def execCtlDleReq (s : State) : Answer :=
  match s.st with
  | .txDleReq => .next (requestSent s)
  | _ => .next s

/-- CTL_DLE_ACK_OUT: R163, the parse of whatever was received included. -/
def execCtlDleAckOut (s : State) : Answer :=
  match s.st with
  | .txDleAck => finishReply s
  | _ => .next s

end Sys2Proof.Machine
end

