-- ==== Sys2Proof/Machine/Escape.lean ====
section
/-! DEFINITION. The escape pairs and the footer inside frames (30_encoding.md R72, R74). The pair is made by the builder
(R102, R121) and undone by the parser (R105, R130); on the wire it is two raw bytes, sent in TX_FRAME (R156) and stored
raw in RX (R160). In RX the meaning is that of the pair's second byte; its first byte was stored as any byte. In TX_FRAME
a pair that is not the one at `tx_idx` is not being sent and changes nothing. -/

namespace Sys2Proof.Machine

/-- The pair of the frame in `txf` that the byte at `tx_idx` belongs to. -/
def pairBeingSent (s : State) : Option (Byte × Byte) := (txBytes s).bind fun f => framePair f s.txIdx

/-- ESC_DLE: `10 10`. -/
def execEscDle (s : State) : Answer :=
  match s.st with
  | .txFrame => if pairBeingSent s = some (dle, dle) then .next (frameByteSent s) else .next s
  | .rx => receiveByte dle s
  | _ => .next s

/-- ESC_2B: `2B 18`. -/
def execEsc2B (s : State) : Answer :=
  match s.st with
  | .txFrame => if pairBeingSent s = some (esc2b, esc18) then .next (frameByteSent s) else .next s
  | .rx => receiveByte esc18 s
  | _ => .next s

/-- FOOTER: `10 03`. Sent as the last two bytes of a request (R121); received, it ends the reply if R166 holds. -/
def execFooter (s : State) : Answer :=
  match s.st with
  | .txFrame => if pairBeingSent s = some (dle, foot3) then .next (frameByteSent s) else .next s
  | .rx => receiveByte foot3 s
  | _ => .next s

end Sys2Proof.Machine
end

