-- ==== Sys2Proof/Machine/FrameOut.lean ====
section
/-! DEFINITION. The request frames FRM_GET_REQ and FRM_SET_REQ (41_frame.md R122, R123), sent byte by byte in TX_FRAME
(42_handshake.md R156). The frame was built at acceptance (R153); the code names the frame that `txf` holds, and one
that `txf` does not hold is not being sent and changes nothing. -/

namespace Sys2Proof.Machine

/-- FRM_GET_REQ: one byte of the frame of R122 is sent. -/
def execFrmGetReq (cmd : List Byte) (s : State) : Answer :=
  match s.st with
  | .txFrame => if txBytes s = some (buildRead cmd) then .next (frameByteSent s) else .next s
  | _ => .next s

/-- FRM_SET_REQ: one byte of the frame of R123 is sent. -/
def execFrmSetReq (payload : List Byte) (s : State) : Answer :=
  match s.st with
  | .txFrame => if txBytes s = some (build hdrSet payload) then .next (frameByteSent s) else .next s
  | _ => .next s

end Sys2Proof.Machine
end

