-- ==== Sys2Proof/Machine/Reply.lean ====
section
/-! DEFINITION. The replies (41_frame.md R132 to R135), judged in TX_DLE_ACK in the cycle in which the final DLE is sent
(42_handshake.md R163). In any other state a reply is not judged and changes nothing. Parser results are not retried
(R173). -/

namespace Sys2Proof.Machine

/-- RPL_GET_OK: R132. The checksum is over header and payload; on a match the payload is the data. -/
def execRplGetOk (cs : Byte) (payload : List Byte) (_foot0 _foot1 : Byte) (s : State) : Answer :=
  match s.st with
  | .txDleAck =>
    if checksum (hdrGet ++ payload) = cs then finish ⟨.ok, payload, 0#16⟩ s
    else finish ⟨.checksumMismatch, [], pack (checksum (hdrGet ++ payload)) cs⟩ s
  | _ => .next s

/-- RPL_SET_ACK: R133. Everything after the header is the data; nothing is checked. -/
def execRplSetAck (rest : List Byte) (s : State) : Answer :=
  match s.st with
  | .txDleAck => finish ⟨.ok, rest, 0#16⟩ s
  | _ => .next s

/-- RPL_ERR_TIMING: R134. -/
def execRplErrTiming (_rest : List Byte) (s : State) : Answer :=
  match s.st with
  | .txDleAck => finish ⟨.devTimingError, [], 0x0101#16⟩ s
  | _ => .next s

/-- RPL_ERR_CHECKSUM: R134. -/
def execRplErrChecksum (_rest : List Byte) (s : State) : Answer :=
  match s.st with
  | .txDleAck => finish ⟨.devChecksumError, [], 0x0102#16⟩ s
  | _ => .next s

/-- RPL_ERR_UNKNOWN_CMD: R134. -/
def execRplErrUnknownCmd (_rest : List Byte) (s : State) : Answer :=
  match s.st with
  | .txDleAck => finish ⟨.devUnknownCommand, [], 0x0103#16⟩ s
  | _ => .next s

/-- RPL_ERR_UNKNOWN_REG: R134. -/
def execRplErrUnknownReg (_rest : List Byte) (s : State) : Answer :=
  match s.st with
  | .txDleAck => finish ⟨.devUnknownRegister, [], 0x0104#16⟩ s
  | _ => .next s

/-- RPL_UNKNOWN_HEADER: R135, with the header value as detail. -/
def execRplUnknownHeader (h0 h1 : Byte) (_rest : List Byte) (s : State) : Answer :=
  match s.st with
  | .txDleAck => finish ⟨.unknownHeader, [], pack h0 h1⟩ s
  | _ => .next s

end Sys2Proof.Machine
end

