-- ==== Sys2Proof/Machine/Request.lean ====
section
/-! DEFINITION. The caller operations READ and WRITE (41_frame.md section 1). A request is accepted in IDLE only; in any
other state it waits (20_memory.md R63, 70_reset_and_hazards.md R224). -/

namespace Sys2Proof.Machine

/-- READ: R125, R152, R153; the frame is R122's. -/
def execRead (n : BitVec 2) (c0 c1 c2 : Byte) (s : State) : Answer :=
  match s.st with
  | .idle =>
    if readWellFormed n then .next (accept hdrGet (cmdBytes n c0 c1 c2) s) else .next (refuseRequest s)
  | _ => .next s

/-- WRITE: R126, R152, R153; the frame is R123's. -/
def execWrite (n : BitVec 2) (c0 c1 c2 : Byte) (wlen : Nat) (wdata : List Byte) (s : State) : Answer :=
  match s.st with
  | .idle =>
    if writeWellFormed s.par n wlen then
      match valueBytes wlen wdata with
      | some val => .next (accept hdrSet (cmdBytes n c0 c1 c2 ++ val) s)
      | none => .refused .shortBus
    else .next (refuseRequest s)
  | _ => .next s

end Sys2Proof.Machine
end

