-- ==== Sys2Proof/Machine/Dispatch.lean ====
section
/-! DEFINITION. The meaning of each instruction, one arm per constructor. -/

namespace Sys2Proof.Machine

def exec (i : Instr) (s : State) : Host.Outcome State Fault Refusal :=
  match i with
  | .read n c0 c1 c2 => Sys2Proof.Machine.execRead n c0 c1 c2 s
  | .write n c0 c1 c2 k d => Sys2Proof.Machine.execWrite n c0 c1 c2 k d s
  | .frmGetReq cmd => Sys2Proof.Machine.execFrmGetReq cmd s
  | .frmSetReq payload => Sys2Proof.Machine.execFrmSetReq payload s
  | .rplGetOk cs payload foot0 foot1 => Sys2Proof.Machine.execRplGetOk cs payload foot0 foot1 s
  | .rplSetAck rest => Sys2Proof.Machine.execRplSetAck rest s
  | .rplErrTiming rest => Sys2Proof.Machine.execRplErrTiming rest s
  | .rplErrChecksum rest => Sys2Proof.Machine.execRplErrChecksum rest s
  | .rplErrUnknownCmd rest => Sys2Proof.Machine.execRplErrUnknownCmd rest s
  | .rplErrUnknownReg rest => Sys2Proof.Machine.execRplErrUnknownReg rest s
  | .rplUnknownHeader h0 h1 rest => Sys2Proof.Machine.execRplUnknownHeader h0 h1 rest s
  | .ctlStxOut => Sys2Proof.Machine.execCtlStxOut s
  | .ctlDleAckIn => Sys2Proof.Machine.execCtlDleAckIn s
  | .ctlNak => Sys2Proof.Machine.execCtlNak s
  | .ctlEchoDleStx => Sys2Proof.Machine.execCtlEchoDleStx s
  | .ctlEchoStx => Sys2Proof.Machine.execCtlEchoStx s
  | .ctlDleReq => Sys2Proof.Machine.execCtlDleReq s
  | .ctlDleAckOut => Sys2Proof.Machine.execCtlDleAckOut s
  | .escDle => Sys2Proof.Machine.execEscDle s
  | .esc2B => Sys2Proof.Machine.execEsc2B s
  | .footer => Sys2Proof.Machine.execFooter s

end Sys2Proof.Machine
end

