-- ==== Sys2Proof/WellFormed.lean ====
section
/-! DEFINITION. Which terms of `Instr` a port or a wire can carry. This is not R127: a request that R127 calls not
well-formed is a term the port carries, and the machine answers it with BAD_REQUEST. -/

namespace Sys2Proof

open Machine (footerBytes wireFrame dle esc2b)

/-- The header of a reply is none of the six of R71. -/
def headerUnknown (h0 h1 : Byte) : Bool :=
  !(h0 == 0x01#8 && (h1 == 0x00#8 || h1 == 0x80#8 || h1 == 0x01#8 || h1 == 0x02#8 || h1 == 0x03#8 || h1 == 0x04#8))

/-- A byte that the whole-buffer unescape of R105 leaves as it is wherever it stands (R108). -/
def plainByte (b : Byte) : Bool := !(b == dle || b == esc2b)

/-- Everything after the header of a reply: checksum byte, payload, and the footer last (R70); at least the minimum frame
(R131), and the raw frame fits the receive buffer (R10). -/
def replyRestOk (p : Params) (h0 h1 : Byte) (rest : List Byte) : Bool :=
  decide (3 ≤ rest.length) && rest.drop (rest.length - 2) == footerBytes &&
  decide ((wireFrame h0 h1 rest).length ≤ p.maxRx)

/-- Each check has an ill-formed term in Tests/Slice0.lean that it refuses. -/
def Instr.wf (p : Params) : Instr → Bool
  | .read _ _ _ _ => true
  | .write _ _ _ _ wlen wdata => decide (wlen < 2 ^ clog2 (p.maxWdata + 1)) && wdata.length == p.maxWdata
  | .frmGetReq cmd => decide (1 ≤ cmd.length) && decide (cmd.length ≤ 3)
  | .frmSetReq payload => decide (1 ≤ payload.length) && decide (payload.length ≤ 3 + p.maxWdata)
  | .rplGetOk cs payload foot0 foot1 => replyRestOk p 0x01#8 0x00#8 (cs :: payload ++ [foot0, foot1])
  | .rplSetAck rest => replyRestOk p 0x01#8 0x80#8 rest
  | .rplErrTiming rest => replyRestOk p 0x01#8 0x01#8 rest
  | .rplErrChecksum rest => replyRestOk p 0x01#8 0x02#8 rest
  | .rplErrUnknownCmd rest => replyRestOk p 0x01#8 0x03#8 rest
  | .rplErrUnknownReg rest => replyRestOk p 0x01#8 0x04#8 rest
  | .rplUnknownHeader h0 h1 rest => headerUnknown h0 h1 && plainByte h0 && plainByte h1 && replyRestOk p h0 h1 rest
  | .ctlStxOut => true
  | .ctlDleAckIn => true
  | .ctlNak => true
  | .ctlEchoDleStx => true
  | .ctlEchoStx => true
  | .ctlDleReq => true
  | .ctlDleAckOut => true
  | .escDle => true
  | .esc2B => true
  | .footer => true

end Sys2Proof
end

