-- ==== Sys2Proof/Decode.lean ====
section
/-! DEFINITION. The decoder, total on whatever the request port or the wire carries and rejecting by name; after it the
encoder. Formats: 30_encoding.md sections 1 to 5. -/

namespace Sys2Proof

open Machine (stx dle nak esc2b esc18 foot3 hdrGet hdrSet escape unescape build wireFrame)

/-- Why a word is no code of the table. -/
inductive Reject where
  /-- The bytes are no code at this place: the block's rule for any other byte applies (R83). -/
  | notACode (slot : Slot) (bytes : List Byte)
  /-- The bytes in the transmit buffer are no request frame of R122 or R123. -/
  | notARequestFrame
  /-- The reply is shorter than 5 bytes after unescaping and has no readable header (R131). -/
  | replyTooShort (n : Nat)
deriving DecidableEq, Repr

/-- The decoder's answer. -/
inductive Decoded where
  | ok (i : Instr)
  | reject (why : Reject)
deriving DecidableEq, Repr

/-- R80: `req_kind` selects; for a READ `req_wlen` and `req_wdata` are ignored. -/
def decodeRequest (r : Request) : Instr :=
  if r.kind = 0#1 then .read r.cmdLen r.cmd0 r.cmd1 r.cmd2
  else .write r.cmdLen r.cmd0 r.cmd1 r.cmd2 r.wlen r.wdata

/-- The payload that a sent frame's escape region holds, its checksum byte dropped (R70, R105). -/
def framePayload (f : List Byte) : List Byte :=
  (unescape ((f.drop 2).take (f.length - 4))).drop 1

/-- R75, R76, R81: a sent frame is read as the request frame that the builder makes of its payload, or not at all, so
that every byte of it counts. -/
def decodeFrame (f : List Byte) : Decoded :=
  let p := framePayload f
  if 1 ≤ p.length ∧ p.length ≤ 3 ∧ f = build hdrGet p then .ok (.frmGetReq p)
  else if 1 ≤ p.length ∧ f = build hdrSet p then .ok (.frmSetReq p)
  else .reject .notARequestFrame

/-- R71, R82, on the unescaped frame whose header is `h0 h1` and whose further bytes are `rest`. -/
def decodeReplyBody (h0 h1 : Byte) (rest : List Byte) : Instr :=
  if h0 = 0x01#8 ∧ h1 = 0x00#8 then
    .rplGetOk (rest.getD 0 0#8) ((rest.drop 1).take (rest.length - 3))
      (rest.getD (rest.length - 2) 0#8) (rest.getD (rest.length - 1) 0#8)
  else if h0 = 0x01#8 ∧ h1 = 0x80#8 then .rplSetAck rest
  else if h0 = 0x01#8 ∧ h1 = 0x01#8 then .rplErrTiming rest
  else if h0 = 0x01#8 ∧ h1 = 0x02#8 then .rplErrChecksum rest
  else if h0 = 0x01#8 ∧ h1 = 0x03#8 then .rplErrUnknownCmd rest
  else if h0 = 0x01#8 ∧ h1 = 0x04#8 then .rplErrUnknownReg rest
  else .rplUnknownHeader h0 h1 rest

/-- R82, R131: unescape the whole raw reply, then length, then header. -/
def decodeReply (raw : List Byte) : Decoded :=
  match unescape raw with
  | h0 :: h1 :: rest =>
    if 3 ≤ rest.length then .ok (decodeReplyBody h0 h1 rest) else .reject (.replyTooShort (rest.length + 2))
  | u => .reject (.replyTooShort u.length)

/-- The decoder. In W_ECHO a `10` begins CTL_ECHO_DLE_STX, whose second byte is read in W_ECHO2 and may come later (R157,
R158). -/
def decode : Code → Decoded
  | .port r => .ok (decodeRequest r)
  | .wire .stxOut bs => if bs = [stx] then .ok .ctlStxOut else .reject (.notACode .stxOut bs)
  | .wire .ackIn bs =>
    if bs = [dle] then .ok .ctlDleAckIn else if bs = [nak] then .ok .ctlNak else .reject (.notACode .ackIn bs)
  | .wire .frame bs => decodeFrame bs
  | .wire .echo bs =>
    if bs = [stx] then .ok .ctlEchoStx
    else if bs = [dle] ∨ bs = [dle, stx] then .ok .ctlEchoDleStx
    else if bs = [nak] then .ok .ctlNak
    else .reject (.notACode .echo bs)
  | .wire .echo2 bs =>
    if bs = [stx] then .ok .ctlEchoDleStx else if bs = [nak] then .ok .ctlNak else .reject (.notACode .echo2 bs)
  | .wire .dleReq bs => if bs = [dle] then .ok .ctlDleReq else .reject (.notACode .dleReq bs)
  | .wire .data bs => .reject (.notACode .data bs)
  | .wire .pair bs =>
    if bs = [dle, dle] then .ok .escDle
    else if bs = [esc2b, esc18] then .ok .esc2B
    else if bs = [dle, foot3] then .ok .footer
    else .reject (.notACode .pair bs)
  | .wire .ackOut bs => if bs = [dle] then .ok .ctlDleAckOut else .reject (.notACode .ackOut bs)
  | .wire .reply bs => decodeReply bs

/-- The encoder: the word of an instruction, from the formats of 30_encoding.md. -/
def encode : Instr → Code
  | .read n c0 c1 c2 => .port { kind := 0#1, cmdLen := n, cmd0 := c0, cmd1 := c1, cmd2 := c2, wlen := 0, wdata := [] }
  | .write n c0 c1 c2 k d => .port { kind := 1#1, cmdLen := n, cmd0 := c0, cmd1 := c1, cmd2 := c2, wlen := k, wdata := d }
  | .frmGetReq cmd => .wire .frame (build hdrGet cmd)
  | .frmSetReq payload => .wire .frame (build hdrSet payload)
  | .rplGetOk cs payload f0 f1 => .wire .reply (wireFrame 0x01#8 0x00#8 (cs :: payload ++ [f0, f1]))
  | .rplSetAck rest => .wire .reply (wireFrame 0x01#8 0x80#8 rest)
  | .rplErrTiming rest => .wire .reply (wireFrame 0x01#8 0x01#8 rest)
  | .rplErrChecksum rest => .wire .reply (wireFrame 0x01#8 0x02#8 rest)
  | .rplErrUnknownCmd rest => .wire .reply (wireFrame 0x01#8 0x03#8 rest)
  | .rplErrUnknownReg rest => .wire .reply (wireFrame 0x01#8 0x04#8 rest)
  | .rplUnknownHeader h0 h1 rest => .wire .reply (wireFrame h0 h1 rest)
  | .ctlStxOut => .wire .stxOut [stx]
  | .ctlDleAckIn => .wire .ackIn [dle]
  | .ctlNak => .wire .ackIn [nak]
  | .ctlEchoDleStx => .wire .echo [dle, stx]
  | .ctlEchoStx => .wire .echo [stx]
  | .ctlDleReq => .wire .dleReq [dle]
  | .ctlDleAckOut => .wire .ackOut [dle]
  | .escDle => .wire .pair [dle, dle]
  | .esc2B => .wire .pair [esc2b, esc18]
  | .footer => .wire .pair [dle, foot3]

/-- The request whose word is `w`: bit 0 `req_kind`, then in the table's order of fields `req_cmd_len` in bits 2:1 and the
three command bytes in bits 10:3, 18:11, 26:19. Only bit 0 is the table's; the rest is a DESIGN CHOICE (log entry 3). -/
def tableRequest (w : Nat) : Request where
  kind := BitVec.ofNat 1 w
  cmdLen := BitVec.ofNat 2 (w / 2)
  cmd0 := BitVec.ofNat 8 (w / 2 ^ 3)
  cmd1 := BitVec.ofNat 8 (w / 2 ^ 11)
  cmd2 := BitVec.ofNat 8 (w / 2 ^ 19)
  wlen := 0
  wdata := []

/-- The code that a word of the opcode table stands for. A byte or a byte pair (first byte in bits 15:8, as the table
writes them) names the place on the wire where the table gives it a row; where several rows share the word, log entry 2
says which is meant. A header word is the shortest reply with that header, every further byte zero. -/
def tableCode (nbits w : Nat) : Code :=
  if nbits = 0 then .wire .reply [0#8, 0#8, 0#8, 0#8, 0#8]
  else if nbits ≤ 8 then
    let b := BitVec.ofNat 8 w
    if b = stx then .wire .stxOut [stx]
    else if b = dle then .wire .ackIn [dle]
    else if b = nak then .wire .ackIn [nak]
    else .port (tableRequest w)
  else
    let b0 := BitVec.ofNat 8 (w / 256)
    let b1 := BitVec.ofNat 8 w
    if b0 = dle ∧ b1 = stx then .wire .echo [dle, stx]
    else if (b0 = dle ∧ b1 = dle) ∨ (b0 = esc2b ∧ b1 = esc18) ∨ (b0 = dle ∧ b1 = foot3) then .wire .pair [b0, b1]
    else .wire .reply [b0, b1, 0#8, 0#8, 0#8]

/-- The instruction that the decoder reads from a word of spec/opcode_table.json. -/
def decodeTableWord (nbits w : Nat) : Option Instr :=
  match decode (tableCode nbits w) with
  | .ok i => some i
  | .reject _ => none

end Sys2Proof
end

