-- ==== Sys2Proof/Machine/Fetch.lean ====
section
/-! DEFINITION. Which code a cycle handles: what the ports present in the place that `st` reads, given to the decoder
(log entries 1, 11, 12). -/

namespace Sys2Proof.Machine

/-- The bytes of a pair. -/
def pairBytes (p : Byte × Byte) : List Byte := [p.1, p.2]

/-- In TX_FRAME: the footer or the escape pair the byte belongs to that is sent now, else the whole frame. -/
def presentedFrame (f : List Byte) (i : Nat) : Code :=
  match framePair f i with
  | some p => .wire .pair (pairBytes p)
  | none => .wire .frame f

/-- In RX: the footer when the byte completes the reply, the escape pair it completes, else a byte of data. -/
def presentedRx (fm : FooterMatch) (old : List Byte) (b : Byte) : Code :=
  if rxDone fm (old ++ [b]) then .wire .pair [dle, foot3]
  else
    match lastPair (old ++ [b]) with
    | some p => .wire .pair (pairBytes p)
    | none => .wire .data [b]

/-- In TX_DLE_ACK: the reply whose result this cycle gives, when it is long enough to have a header, else the final DLE. -/
def presentedReply (raw : List Byte) : Code :=
  if 5 ≤ (unescape raw).length then .wire .reply raw else .wire .ackOut [dle]

/-- What the request port and the wire present in this cycle, if anything is taken or sent. -/
def presented (s : State) : Option Code :=
  match s.st with
  | .idle => if s.inp.reqValid then some (.port s.inp.req) else none
  | .txStx => if sent s then some (.wire .stxOut [stx]) else none
  | .wAck => (got s).map fun b => .wire .ackIn [b]
  | .txFrame => if sent s then (txBytes s).map fun f => presentedFrame f s.txIdx else none
  | .wEcho => (got s).map fun b => .wire .echo [b]
  | .wEcho2 => (got s).map fun b => .wire .echo2 [b]
  | .txDleReq => if sent s then some (.wire .dleReq [dle]) else none
  | .rx => (got s).bind fun b => if rxFull s then none else (rxBytes s).map fun old => presentedRx s.par.footerMatch old b
  | .txDleAck => if sent s then (rxBytes s).map presentedReply else none
  | .retryWait => none
  | .flush => none
  | .done => none

/-- The instruction a cycle runs: the code presented, if the decoder reads it. -/
def fetch (s : State) : Option Instr :=
  match presented s with
  | some c =>
    match decode c with
    | .ok i => some i
    | .reject _ => none
  | none => none

/-- The same inputs with no reset. -/
def Inputs.live (i : Inputs) : Inputs := { i with rst := false }

/-- `s` with the inputs of this cycle replaced. -/
def State.withInp (s : State) (i : Inputs) : State := { s with env := i :: s.env.drop 1 }

/-- `s` about to receive the byte `b`: the channel offers it. -/
def State.offering (s : State) (b : Byte) : State :=
  { s.withInp { s.inp.live with rxOffer := true } with chRx := b :: s.chRx }

/-- `s` about to send: the channel takes the byte. -/
def State.sending (s : State) : State := s.withInp { s.inp.live with txReady := true }

/-- `s` with the code `c` where the next step fetches, and `st` at the place it is read. Nothing else changes. -/
def placeCode (s : State) : Code → State
  | .port r => { s.withInp { s.inp.live with reqValid := true, req := r } with st := .idle }
  | .wire .stxOut _ => { s.sending with st := .txStx }
  | .wire .ackIn bs => { s.offering (bs.getD 0 0#8) with st := .wAck }
  | .wire .frame bs =>
    { s.sending with st := .txFrame, txf := Memory.ofBytes bs, txfLen := bs.length, txIdx := 0 }
  | .wire .echo bs => { s.offering (bs.getD 0 0#8) with st := .wEcho }
  | .wire .echo2 bs => { s.offering (bs.getD 0 0#8) with st := .wEcho2 }
  | .wire .dleReq _ => { s.sending with st := .txDleReq }
  | .wire .data bs => { s.offering (bs.getD 0 0#8) with st := .rx }
  | .wire .pair bs =>
    let old := if bs = [dle, foot3] then [0x01#8, dle] else [bs.getD 0 0#8]
    { s.offering (bs.getD 1 0#8) with st := .rx, rxb := Memory.ofBytes old, rxLen := old.length }
  | .wire .ackOut _ => { s.sending with st := .txDleAck, rxb := [], rxLen := 0 }
  | .wire .reply bs => { s.sending with st := .txDleAck, rxb := Memory.ofBytes bs, rxLen := bs.length }

end Sys2Proof.Machine
end

