-- ==== Sys2Proof/Machine/Step.lean ====
section
/-! DEFINITION. One clock cycle (10_state.md R20, 42_handshake.md R151). -/

namespace Sys2Proof.Machine

/-- One cycle: reset first (R195); else the meaning of the code the cycle handles; else the rule of a cycle without one.
Then the environment's side of the cycle. -/
def step (s : State) : Host.Outcome State Fault Refusal :=
  if s.inp.rst then closeCycle s (resetBlock s)
  else
    match fetch s with
    | some i => andThen (exec i s) (closeCycle s)
    | none => andThen (rule s) (closeCycle s)

/-- `s` with the word of spec/opcode_table.json placed so that the very next step runs it (log entry 14). -/
def State.withFetchWord (s : State) (nbits w : Nat) : State := placeCode s (tableCode nbits w)

end Sys2Proof.Machine
end

