-- ==== Sys2Proof/Safety.lean ====
section
/-! DEFINITION. What a safe run is: the invariant of the block (10_state.md R26 to R37, R44; 40_codec.md R109), the
widths of its registers (00_scope.md R18), and the measure that bounds a request (42_handshake.md R174). -/

namespace Sys2Proof.Machine

/-- A request is in flight: the block is between acceptance and DONE (R153, R167). -/
def St.inFlight (x : St) : Bool := !(x == .idle || x == .done)

/-- The channel is only read in these states (R38). -/
def St.waits (x : St) : Bool := x == .wAck || x == .wEcho || x == .wEcho2 || x == .rx

/-- The block offers a byte in these states (R38). -/
def St.sends (x : St) : Bool := x == .txStx || x == .txFrame || x == .txDleReq || x == .txDleAck

/-- The limit the timer runs against in a state that counts ticks (R164, R168). -/
def timerLimit (p : Params) : St → Option Nat
  | .wAck => some p.tAck
  | .wEcho => some p.tEcho
  | .wEcho2 => some p.tEcho
  | .rx => some p.tRx
  | .retryWait => some p.tDelay
  | _ => none

/-- `err_step` as the table of R190 gives it for each code. -/
def stepFits : Result → ErrStep → Bool
  | .ok, k => k == .none
  | .badRequest, k => k == .none
  | .handshakeTimeout, k => k == .step1 || k == .step2 || k == .step3
  | .handshakeRejected, k => k == .step1 || k == .step2
  | _, k => k == .step4

/-- The frame in `txf` is one that R122 or R123 builds from a payload of a legal length (R75, R76, R127). -/
def requestFrame (s : State) : Prop :=
  ∃ p : List Byte, 1 ≤ p.length ∧
    ((p.length ≤ 3 ∧ txBytes s = some (build hdrGet p)) ∨
     (p.length ≤ 3 + s.par.maxWdata ∧ txBytes s = some (build hdrSet p)))

/-- What holds in every state that a run reaches from reset. -/
structure Invariant (s : State) : Prop where
  /-- R5 to R11. -/
  parOk : s.par.ok = true
  /-- R44: exactly the bytes below the length register have a value. -/
  txfCovers : s.txf.covers s.txfLen = true
  /-- R44. -/
  rxbCovers : s.rxb.covers s.rxLen = true
  /-- R44. -/
  respCovers : s.respData.covers s.respLen = true
  /-- R11, R50. -/
  txfFits : s.txfLen ≤ s.par.txfMax
  /-- R10, R109. -/
  rxFits : s.rxLen ≤ s.par.maxRx
  /-- R37. -/
  respFits : s.respLen ≤ s.par.maxRx
  /-- R109. -/
  idxInFrame : s.st = .txFrame → s.txIdx < s.txfLen
  /-- R109: the index register stays below the buffer's size. -/
  idxFits : s.txIdx ≤ s.par.txfMax
  /-- R27, R153, R172. -/
  frameBuilt : s.st.inFlight = true → requestFrame s
  /-- R168, R109: `timer < T` in every timed state and in RETRY_WAIT. -/
  timerBelow : ∀ limit, timerLimit s.par s.st = some limit → s.timer < limit
  /-- R109. -/
  timerFits : s.timer ≤ s.par.maxTime
  /-- R30, R109. -/
  attemptFits : s.attempt ≤ s.par.nRetry + 1
  /-- R30. -/
  attemptMade : s.st.inFlight = true → 1 ≤ s.attempt
  /-- R171: RETRY_WAIT and FLUSH only while a retry remains. -/
  retryRemains : s.st = .retryWait ∨ s.st = .flush → s.attempt ≤ s.par.nRetry
  /-- R190, R191. -/
  errStepFits : stepFits s.lastErr s.errStep = true
  /-- R163, R171, R152: in DONE the result is the last attempt's. -/
  resultIsLast : s.st = .done → s.respCode = s.lastErr
  /-- R37: data only with OK. -/
  dataOnlyOk : s.respCode ≠ .ok → s.respLen = 0
  /-- R32: the flag is set only while the buffer is full. -/
  ovfFull : s.rxOvf = true → s.rxLen = s.par.maxRx

/-- The value bus of a request offered in this cycle is as wide as its `req_wlen` (R21). -/
def busDriven (s : State) : Bool := !s.inp.reqValid || decide (s.inp.req.wlen ≤ s.inp.req.wdata.length)

/-- An environment's cycle in which time passes and the channel takes a byte offered: the premise of R174. -/
def Inputs.lively (i : Inputs) : Bool := !i.rst && i.tick && i.txReady

/-- What an attempt may still cost from a state of it, in cycles in which `lively` holds. -/
def attemptCost (s : State) : Nat :=
  match s.st with
  | .txStx => s.par.tDelay + s.par.tRx + s.par.tEcho + s.txfLen + s.par.tAck + 3
  | .wAck => s.par.tDelay + s.par.tRx + s.par.tEcho + s.txfLen + (s.par.tAck - s.timer) + 2
  | .txFrame => s.par.tDelay + s.par.tRx + s.par.tEcho + (s.txfLen - s.txIdx) + 2
  | .wEcho => s.par.tDelay + s.par.tRx + (s.par.tEcho - s.timer) + 2
  | .wEcho2 => s.par.tDelay + s.par.tRx + (s.par.tEcho - s.timer) + 2
  | .txDleReq => s.par.tDelay + s.par.tRx + 2
  | .rx => s.par.tDelay + (s.par.tRx - s.timer) + 1
  | .txDleAck => s.par.tDelay + 1
  | .retryWait => s.par.tDelay - s.timer
  | .flush => 0
  | .idle => 0
  | .done => 0

/-- A bound on the cycles in which `lively` holds until DONE: the attempts that remain, and the rest of this one (R174,
R235). -/
def requestCost (s : State) : Nat :=
  if s.st.inFlight then
    (s.par.nRetry + 1 - s.attempt) * (s.par.tDelay + s.par.tRx + s.par.tEcho + s.txfLen + s.par.tAck + 4) + attemptCost s + 1
  else 0

/-- The registers of the block, R43's list: what reset and the rules of 42_handshake.md write. The state without the
channel's and the environment's part. -/
def sameRegisters (s t : State) : Prop :=
  s.par = t.par ∧ s.st = t.st ∧ s.txf = t.txf ∧ s.txfLen = t.txfLen ∧ s.txIdx = t.txIdx ∧ s.timer = t.timer ∧
  s.attempt = t.attempt ∧ s.rxb = t.rxb ∧ s.rxLen = t.rxLen ∧ s.rxOvf = t.rxOvf ∧ s.lastErr = t.lastErr ∧
  s.errStep = t.errStep ∧ s.errInfo = t.errInfo ∧ s.respCode = t.respCode ∧ s.respData = t.respData ∧
  s.respLen = t.respLen

/-- The cycle that begins in `s` ends with the registers of `t`. -/
def endsWith (s t : State) : Prop := ∃ u, step s = .next u ∧ sameRegisters u t

/-- `s` with other request fields on the request port in this cycle. -/
def State.withReq (s : State) (r : Request) : State := s.withInp { s.inp with req := r }

/-- `s` with `tick` at `x` in this cycle. -/
def State.withTick (s : State) (x : Bool) : State := s.withInp { s.inp with tick := x }

/-- R169: handling the byte `b` leaves the step that awaited it. -/
def byteLeavesStep (s : State) (b : Byte) : Prop :=
  s.st = .wAck ∨ (s.st = .wEcho ∧ b ≠ dle) ∨ s.st = .wEcho2 ∨
  (s.st = .rx ∧ (rxFull s = true ∨ ∃ old, rxBytes s = some old ∧ rxDone s.par.footerMatch (old ++ [b]) = true))

/-- The states in which a code is sent, taken or judged; in any other it is not (R38, R63, R175, R163). -/
def handledIn : Instr → St → Bool
  | .read _ _ _ _, x => x == .idle
  | .write _ _ _ _ _ _, x => x == .idle
  | .frmGetReq _, x => x == .txFrame
  | .frmSetReq _, x => x == .txFrame
  | .rplGetOk _ _ _ _, x => x == .txDleAck
  | .rplSetAck _, x => x == .txDleAck
  | .rplErrTiming _, x => x == .txDleAck
  | .rplErrChecksum _, x => x == .txDleAck
  | .rplErrUnknownCmd _, x => x == .txDleAck
  | .rplErrUnknownReg _, x => x == .txDleAck
  | .rplUnknownHeader _ _ _, x => x == .txDleAck
  | .ctlStxOut, x => x == .txStx
  | .ctlDleAckIn, x => x == .wAck
  | .ctlNak, x => x == .wAck || x == .wEcho || x == .wEcho2
  | .ctlEchoDleStx, x => x == .wEcho || x == .wEcho2
  | .ctlEchoStx, x => x == .wEcho
  | .ctlDleReq, x => x == .txDleReq
  | .ctlDleAckOut, x => x == .txDleAck
  | .escDle, x => x == .txFrame || x == .rx
  | .esc2B, x => x == .txFrame || x == .rx
  | .footer, x => x == .txFrame || x == .rx

/-- The code whose byte is being sent in TX_FRAME: the frame in `txf`, or the pair at `tx_idx`. -/
def beingSent (i : Instr) (s : State) : Prop :=
  match i with
  | .frmGetReq cmd => txBytes s = some (buildRead cmd)
  | .frmSetReq payload => txBytes s = some (build hdrSet payload)
  | .escDle => pairBeingSent s = some (dle, dle)
  | .esc2B => pairBeingSent s = some (esc2b, esc18)
  | .footer => pairBeingSent s = some (dle, foot3)
  | _ => False

end Sys2Proof.Machine
end

