-- ==== Sys2Proof/Certificates/Slice0/Obligations.lean ====
section
/-! DEFINITION. The statements for the provers, in the order of OBLIGATIONS.json. Each docstring names the rules it
formalises; a clause that rests on a choice of the model names its log entry. -/

open Sys2Proof Sys2Proof.Machine

/-! ### The codec (40_codec.md) -/

/-- R100: the checksum is the sum of all bytes modulo 256. -/
def Obligations.ChecksumIsByteSumMod256 : Prop :=
  ∀ s : List Byte, (checksum s).toNat = (s.map BitVec.toNat).sum % 256

/-- R101: the checksum of a concatenation, and its independence of the order of the bytes. -/
def Obligations.ChecksumOfConcatenationAndOrder : Prop :=
  (∀ s t : List Byte, checksum (s ++ t) = checksum s + checksum t) ∧
  (∀ s t : List Byte, s.Perm t → checksum s = checksum t)

/-- R103: the length of an escaped sequence, and its bounds. -/
def Obligations.EscapeLengthCountsSpecialBytes : Prop :=
  ∀ s : List Byte,
    (escape s).length = s.length + s.countP (fun b => b == 0x10#8 || b == 0x2B#8) ∧
    s.length ≤ (escape s).length ∧ (escape s).length ≤ 2 * s.length

/-- R107: the round trip, and that unescaping never lengthens. -/
def Obligations.UnescapeUndoesEscape : Prop :=
  (∀ x : List Byte, unescape (escape x) = x) ∧ (∀ r : List Byte, (unescape r).length ≤ r.length)

/-- R108: for a header of R71 and an escaped middle, unescaping the whole frame is unescaping the middle only. -/
def Obligations.WholeFrameUnescapeKeepsHeaderAndFooter : Prop :=
  ∀ (h1 : Byte) (m : List Byte), h1 ∈ [0x00#8, 0x80#8, 0x01#8, 0x02#8, 0x03#8, 0x04#8] →
    unescape ([0x01#8, h1] ++ escape m ++ [0x10#8, 0x03#8]) = [0x01#8, h1] ++ m ++ [0x10#8, 0x03#8]

/-! ### Frames (41_frame.md, 30_encoding.md) -/

/-- R84 for a request frame, R11: its length, and that it fits the frame buffer whatever the parameters. -/
def Obligations.RequestFrameLengthFitsBuffer : Prop :=
  ∀ (hdr p : List Byte), hdr.length = 2 →
    (build hdr p).length = 5 + p.length +
      (checksum (hdr ++ [0#8] ++ p) :: p).countP (fun b => b == 0x10#8 || b == 0x2B#8) ∧
    ∀ par : Params, p.length ≤ 3 + par.maxWdata → (build hdr p).length ≤ par.txfMax

/-- R131: fewer than 5 bytes after unescaping is FRAME_TOO_SHORT whatever the header, with the length as detail. -/
def Obligations.ParseTestsLengthFirst : Prop :=
  ∀ r : List Byte, (unescape r).length < 5 →
    parse r = ⟨.frameTooShort, [], BitVec.ofNat 16 (unescape r).length⟩

/-- R132, R133, R134, R135: the result by the header, for every reply of at least 5 bytes after unescaping. `mid` is the
payload and the two bytes in the footer's place. -/
def Obligations.ParseResultByHeader : Prop :=
  ∀ (r : List Byte) (h0 h1 cs : Byte) (mid : List Byte), unescape r = h0 :: h1 :: cs :: mid → 2 ≤ mid.length →
    let payload := mid.take (mid.length - 2)
    let c := checksum ([h0, h1] ++ payload)
    (h0 = 0x01#8 ∧ h1 = 0x00#8 → c = cs → parse r = ⟨.ok, payload, 0#16⟩) ∧
    (h0 = 0x01#8 ∧ h1 = 0x00#8 → c ≠ cs → parse r = ⟨.checksumMismatch, [], pack c cs⟩) ∧
    (h0 = 0x01#8 ∧ h1 = 0x80#8 → parse r = ⟨.ok, cs :: mid, 0#16⟩) ∧
    (h0 = 0x01#8 ∧ h1 = 0x01#8 → parse r = ⟨.devTimingError, [], 0x0101#16⟩) ∧
    (h0 = 0x01#8 ∧ h1 = 0x02#8 → parse r = ⟨.devChecksumError, [], 0x0102#16⟩) ∧
    (h0 = 0x01#8 ∧ h1 = 0x03#8 → parse r = ⟨.devUnknownCommand, [], 0x0103#16⟩) ∧
    (h0 = 0x01#8 ∧ h1 = 0x04#8 → parse r = ⟨.devUnknownRegister, [], 0x0104#16⟩) ∧
    (headerUnknown h0 h1 = true → parse r = ⟨.unknownHeader, [], pack h0 h1⟩)

/-- R137, its first sentence: building and parsing a GET frame gives the payload back. -/
def Obligations.ParseUndoesBuild : Prop :=
  ∀ p : List Byte, parse (build hdrGet p) = ⟨.ok, p, 0#16⟩

/-- R226, R166: under LITERAL the receive step ends at the end of a correct GET reply, and before its end exactly if the
unescaped checksum byte and payload hold a `10` immediately followed by a `03`. -/
def Obligations.FalseFooterExactlyOnDle03 : Prop :=
  ∀ p : List Byte,
    rxDone .literal (build hdrGet p) = true ∧
    ((∃ k, k < (build hdrGet p).length ∧ rxDone .literal ((build hdrGet p).take k) = true) ↔
      ∃ i, (checksum (hdrGet ++ [0#8] ++ p) :: p)[i]? = some 0x10#8 ∧
        (checksum (hdrGet ++ [0#8] ++ p) :: p)[i + 1]? = some 0x03#8)

/-- R226, R12: UNPAIRED_DLE ends every correct GET reply at its end and not before. -/
def Obligations.UnpairedDleHasNoFalseFooter : Prop :=
  ∀ p : List Byte,
    rxDone .unpairedDle (build hdrGet p) = true ∧
    ∀ k, k < (build hdrGet p).length → rxDone .unpairedDle ((build hdrGet p).take k) = false

/-! ### Decoding and encoding -/

/-- For every instruction that the ports and the wire can carry, decoding its encoding gives it back, every operand
included. -/
def Obligations.DecodeUndoesEncode : Prop :=
  ∀ (p : Params) (i : Instr), i.wf p = true → decode (encode i) = .ok i

/-- A byte sequence that the decoder reads as a sent frame is the encoding of what it reads: no byte of it is dropped. -/
def Obligations.EncodeUndoesFrameDecode : Prop :=
  ∀ (f : List Byte) (i : Instr), decode (.wire .frame f) = .ok i → encode i = .wire .frame f

/-- Words written out from the formats of R71, R73, R74, R75, R76 decode to the instructions they stand for. -/
def Obligations.WrittenWordsDecode : Prop :=
  decode (.wire .frame [0x01#8, 0x00#8, 0xFC#8, 0xFB#8, 0x10#8, 0x03#8]) = .ok (.frmGetReq [0xFB#8]) ∧
  decode (.wire .frame
      [0x01#8, 0x80#8, 0xCB#8, 0x0A#8, 0x05#8, 0x10#8, 0x10#8, 0x2B#8, 0x18#8, 0x10#8, 0x03#8]) =
    .ok (.frmSetReq [0x0A#8, 0x05#8, 0x10#8, 0x2B#8]) ∧
  decode (.wire .reply [0x01#8, 0x03#8, 0x04#8, 0x10#8, 0x03#8]) =
    .ok (.rplErrUnknownCmd [0x04#8, 0x10#8, 0x03#8]) ∧
  decode (.wire .reply [0x01#8, 0x00#8, 0x2B#8, 0x18#8, 0x2A#8, 0x10#8, 0x03#8]) =
    .ok (.rplGetOk 0x2B#8 [0x2A#8] 0x10#8 0x03#8) ∧
  decode (.wire .ackIn [0x15#8]) = .ok .ctlNak ∧
  decode (.wire .echo [0x10#8, 0x02#8]) = .ok .ctlEchoDleStx ∧
  decode (.wire .pair [0x2B#8, 0x18#8]) = .ok .esc2B

/-! ### Reset -/

/-- R43: the table of reset values, no buffer byte with a value, and the outputs after reset. -/
def Obligations.ResetValuesAndOutputs : Prop :=
  let s := State.reset
  s.st = .idle ∧ s.txfLen = 0 ∧ s.txIdx = 0 ∧ s.timer = 0 ∧ s.attempt = 0 ∧ s.rxLen = 0 ∧ s.rxOvf = false ∧
  s.lastErr = .ok ∧ s.errStep = .none ∧ s.errInfo = 0x0000#16 ∧ s.respCode = .ok ∧ s.respLen = 0 ∧
  (∀ i, s.txf.read i = none ∧ s.rxb.read i = none ∧ s.respData.read i = none) ∧
  reqReady s = true ∧ respValid s = false ∧ txValid s = false ∧ rxReady s = false ∧ chFlush s = false

/-- R220: in a cycle with rst every register takes its reset value whatever the other inputs, the parameters stay, and a
byte the channel offered to a block with rx_ready is taken and discarded. Outside FLUSH any other byte stays in the channel.
A reset cycle in FLUSH empties the channel: R38 keeps ch_flush at 1 in it and R64 says what that does, read together against
R221's "neither flushes the channel", an inference of the model (log entry 18). Arrivals come last (log entry 5). Not claimed
of a state that offers a byte without a value (log entry 8), in which `txData` is none. -/
def Obligations.ResetCycleClearsRegisters : Prop :=
  ∀ s : State, s.inp.rst = true → (txData s).isSome →
    ∃ t, step s = .next t ∧ sameRegisters t { State.reset with par := s.par } ∧
      t.chRx = (if s.st = .flush then [] else if (got s).isSome then s.chRx.tail else s.chRx) ++ s.inp.arrive

/-! ### The invariant, and the step against R151 -/

/-- The invariant holds right after reset. -/
def Obligations.InvariantHoldsAtReset : Prop := Invariant State.reset

/-- Every step keeps the invariant: legal parameters, buffers defined exactly below their lengths, counters within their
bounds, the frame a built request frame, at most N_RETRY + 1 attempts, a consistent error record. -/
def Obligations.StepKeepsInvariant : Prop :=
  ∀ s t : State, Invariant s → step s = .next t → Invariant t

/-- In a state with the invariant no step faults, and every step answers a next state if the value bus carries the bytes
of a request offered (log entry 13). -/
def Obligations.InvariantStepsComplete : Prop :=
  ∀ s : State, Invariant s → (∀ f, step s ≠ .fault f) ∧ (busDriven s = true → ∃ t, step s = .next t)

/-- Running the decoded instruction agrees in every state with the step function of R151, written state by state. -/
def Obligations.StepAgreesWithCycleRules : Prop := ∀ s : State, step s = cycle s

/-- A step without reset runs the instruction that the presented code decodes to, and then closes the cycle. -/
def Obligations.StepRunsDecodedInstruction : Prop :=
  ∀ (s : State) (c : Code) (i : Instr), s.inp.rst = false → presented s = some c → decode c = .ok i →
    step s = andThen (exec i s) (closeCycle s)

/-- What a step adds around the meaning: the registers are left as they are, the inputs move on, the channel gives up the
byte received and takes the byte sent, and its bytes reach the line in order (R58, R61; the form is log entry 5). -/
def Obligations.ClosingACycleMovesOnlyTheChannel : Prop :=
  ∀ s t : State, (txData s).isSome → s.st ≠ .flush →
    ∃ u, closeCycle s t = .next u ∧ sameRegisters u t ∧ u.env = s.env.tail ∧
      u.chRx = (if (got s).isSome then s.chRx.tail else s.chRx) ++ s.inp.arrive ∧
      u.line ++ u.chTx = s.line ++ s.chTx ++ (if sent s then (txData s).toList else [])

/-! ### Requests -/

/-- R125, R153: a READ with a command of 1 to 3 bytes is accepted in IDLE. Everything not named is unchanged. -/
def Obligations.ReadIsAcceptedInIdle : Prop :=
  ∀ (n : BitVec 2) (c0 c1 c2 : Byte) (s : State), s.st = .idle → n ≠ 0#2 →
    exec (.read n c0 c1 c2) s = .next { s with
      txf := Memory.ofBytes (buildRead ([c0, c1, c2].take n.toNat)),
      txfLen := (buildRead ([c0, c1, c2].take n.toNat)).length,
      txIdx := 0, timer := 0, attempt := 1, rxb := [], rxLen := 0, rxOvf := false, respCode := .ok, respData := [],
      respLen := 0, lastErr := .ok, errStep := .none, errInfo := 0x0000#16, st := .txStx }

/-- R126, R153: a WRITE with a command of 1 to 3 bytes and at most MAX_WDATA value bytes is accepted in IDLE. A value bus
that lacks the bytes is refused by name (log entry 13). -/
def Obligations.WriteIsAcceptedInIdle : Prop :=
  ∀ (n : BitVec 2) (c0 c1 c2 : Byte) (wlen : Nat) (wdata : List Byte) (s : State),
    s.st = .idle → n ≠ 0#2 → wlen ≤ s.par.maxWdata →
    (wlen ≤ wdata.length →
      exec (.write n c0 c1 c2 wlen wdata) s = .next { s with
        txf := Memory.ofBytes (buildWrite ([c0, c1, c2].take n.toNat) (wdata.take wlen)),
        txfLen := (buildWrite ([c0, c1, c2].take n.toNat) (wdata.take wlen)).length,
        txIdx := 0, timer := 0, attempt := 1, rxb := [], rxLen := 0, rxOvf := false, respCode := .ok, respData := [],
        respLen := 0, lastErr := .ok, errStep := .none, errInfo := 0x0000#16, st := .txStx }) ∧
    (wdata.length < wlen → exec (.write n c0 c1 c2 wlen wdata) s = .refused .shortBus)

/-- R127, R152: a request that is not well-formed ends at once with BAD_REQUEST; `txf` and all else is unchanged. -/
def Obligations.IllFormedRequestEndsAsBadRequest : Prop :=
  ∀ (n : BitVec 2) (c0 c1 c2 : Byte) (wlen : Nat) (wdata : List Byte) (s : State), s.st = .idle →
    let bad := { s with
      respCode := Result.badRequest, lastErr := Result.badRequest, errStep := ErrStep.none, errInfo := 0x0000#16,
      respData := [], respLen := 0, rxb := [], rxLen := 0, rxOvf := false, attempt := 0, st := St.done }
    (n = 0#2 → exec (.read n c0 c1 c2) s = .next bad) ∧
    (n = 0#2 ∨ s.par.maxWdata < wlen → exec (.write n c0 c1 c2 wlen wdata) s = .next bad)

/-! ### Sending -/

/-- R154: TX_STX offers `02`; sending it goes to W_ACK with a fresh timer; without tx_ready the registers stay. -/
def Obligations.StxIsSentInTxStx : Prop :=
  ∀ s : State, s.st = .txStx →
    txValid s = true ∧ txData s = some 0x02#8 ∧
    exec .ctlStxOut s = .next { s with timer := 0, st := .wAck } ∧
    (s.inp.rst = false → s.inp.txReady = false → endsWith s s)

/-- R156: in TX_FRAME the byte `txf[tx_idx]` is offered, and each code that may be in the frame (the frame itself, an
escape pair, the footer) sends one byte: the last goes to W_ECHO with a fresh timer, any other to the next index. That these
five codes mean the sending of one byte in TX_FRAME is the model's choice (log entry 12); what sending a byte does is R156. -/
def Obligations.FrameCodesSendOneByte : Prop :=
  ∀ (i : Instr) (s : State), s.st = .txFrame → beingSent i s →
    txValid s = true ∧ txData s = (if s.txIdx < s.txfLen then s.txf.read s.txIdx else none) ∧
    (s.txIdx + 1 = s.txfLen → exec i s = .next { s with timer := 0, st := .wEcho }) ∧
    (s.txIdx + 1 ≠ s.txfLen → exec i s = .next { s with txIdx := s.txIdx + 1 })

/-- R159: TX_DLE_REQ offers `10`; sending it starts step 3 with an empty buffer and a fresh timer. -/
def Obligations.DleRequestStartsReceiving : Prop :=
  ∀ s : State, s.st = .txDleReq →
    txValid s = true ∧ txData s = some 0x10#8 ∧
    exec .ctlDleReq s = .next { s with timer := 0, rxb := [], rxLen := 0, rxOvf := false, st := .rx } ∧
    (s.inp.rst = false → s.inp.txReady = false → endsWith s s)

/-- R163: TX_DLE_ACK offers `10`; sending it writes the parse of the received bytes into the result registers and goes to
DONE. -/
def Obligations.FinalDleFinishesWithParse : Prop :=
  ∀ (s : State) (raw : List Byte), s.st = .txDleAck → rxBytes s = some raw → (parse raw).data.length ≤ s.par.maxRx →
    txValid s = true ∧ txData s = some 0x10#8 ∧
    exec .ctlDleAckOut s = .next { s with
      respCode := (parse raw).code, lastErr := (parse raw).code, errInfo := (parse raw).info,
      errStep := if (parse raw).code = .ok then .none else .step4,
      respData := Memory.ofBytes (parse raw).data, respLen := (parse raw).data.length, st := .done }

/-- R170: in a sending state without tx_ready the registers stay whatever the tick: no timeout. -/
def Obligations.SendingWaitsWithoutLimit : Prop :=
  ∀ s : State, s.st.sends = true → s.inp.rst = false → s.inp.txReady = false → endsWith s s

/-! ### Replies -/

/-- R132, R163: a GET reply whose checksum matches ends as OK with its payload; one whose checksum does not ends as
CHECKSUM_MISMATCH with the computed byte over the received one. -/
def Obligations.GetReplyIsChecked : Prop :=
  ∀ (cs f0 f1 : Byte) (payload : List Byte) (s : State), s.st = .txDleAck →
    let c := checksum ([0x01#8, 0x00#8] ++ payload)
    (c = cs → payload.length ≤ s.par.maxRx →
      exec (.rplGetOk cs payload f0 f1) s = .next { s with
        respCode := .ok, lastErr := .ok, errStep := .none, errInfo := 0x0000#16,
        respData := Memory.ofBytes payload, respLen := payload.length, st := .done }) ∧
    (c ≠ cs →
      exec (.rplGetOk cs payload f0 f1) s = .next { s with
        respCode := .checksumMismatch, lastErr := .checksumMismatch, errStep := .step4, errInfo := pack c cs,
        respData := [], respLen := 0, st := .done })

/-- R133, R163: a write acknowledgement ends as OK with everything after its header, unchecked. -/
def Obligations.SetReplyIsReturnedVerbatim : Prop :=
  ∀ (rest : List Byte) (s : State), s.st = .txDleAck → rest.length ≤ s.par.maxRx →
    exec (.rplSetAck rest) s = .next { s with
      respCode := .ok, lastErr := .ok, errStep := .none, errInfo := 0x0000#16,
      respData := Memory.ofBytes rest, respLen := rest.length, st := .done }

/-- R134, R135, R163: a device error header and an unknown header end with their code and the header value; the rest is
not examined. -/
def Obligations.ErrorRepliesEndWithTheirCode : Prop :=
  ∀ (rest : List Byte) (h0 h1 : Byte) (s : State), s.st = .txDleAck →
    let ended := fun (e : Result) (info : BitVec 16) => Host.Outcome.next (φ := Fault) (ρ := Refusal) { s with
      respCode := e, lastErr := e, errStep := .step4, errInfo := info, respData := [], respLen := 0, st := .done }
    exec (.rplErrTiming rest) s = ended .devTimingError 0x0101#16 ∧
    exec (.rplErrChecksum rest) s = ended .devChecksumError 0x0102#16 ∧
    exec (.rplErrUnknownCmd rest) s = ended .devUnknownCommand 0x0103#16 ∧
    exec (.rplErrUnknownReg rest) s = ended .devUnknownRegister 0x0104#16 ∧
    exec (.rplUnknownHeader h0 h1 rest) s = ended .unknownHeader (pack h0 h1)

/-- The final DLE and the reply are handled in one cycle (log entry 11): where the received bytes decode to a reply, the
two meanings agree. -/
def Obligations.FinalDleAgreesWithReply : Prop :=
  ∀ (s : State) (raw : List Byte) (i : Instr), s.st = .txDleAck → rxBytes s = some raw →
    decode (.wire .reply raw) = .ok i → exec .ctlDleAckOut s = exec i s

/-! ### Waiting for the device -/

/-- R155, R157: the DLE of step 1 and the bare STX of step 2. -/
def Obligations.DeviceAcknowledgesAdvance : Prop :=
  ∀ s : State,
    (s.st = .wAck → exec .ctlDleAckIn s = .next { s with txIdx := 0, st := .txFrame }) ∧
    (s.st = .wEcho → exec .ctlEchoStx s = .next { s with st := .txDleReq })

/-- R157, R158: a split `10 02`. The `10` goes to W_ECHO2 and the timer goes on: a tick of the same cycle counts, and the
last one times the step out. The `02` completes the step. -/
def Obligations.SplitDleStxKeepsOneWindow : Prop :=
  ∀ s : State,
    (s.st = .wEcho → s.inp.tick = false → exec .ctlEchoDleStx s = .next { s with st := .wEcho2 }) ∧
    (s.st = .wEcho → s.inp.tick = true → s.timer + 1 < s.par.tEcho →
      exec .ctlEchoDleStx s = .next { s with st := .wEcho2, timer := s.timer + 1 }) ∧
    (s.st = .wEcho → s.inp.tick = true → s.par.tEcho ≤ s.timer + 1 →
      exec .ctlEchoDleStx s = .next (abort .handshakeTimeout .step2 0x0000#16 s)) ∧
    (s.st = .wEcho2 → exec .ctlEchoDleStx s = .next { s with st := .txDleReq })

/-- R155, R157, R158, R171, R192: a NAK rejects the attempt in step 1 or 2, with `0015` as the detail: RETRY_WAIT while a
retry remains, else DONE. -/
def Obligations.NakRejectsTheAttempt : Prop :=
  ∀ s : State, (s.st = .wAck ∨ s.st = .wEcho ∨ s.st = .wEcho2) →
    let k := if s.st = .wAck then ErrStep.step1 else ErrStep.step2
    (s.attempt ≤ s.par.nRetry →
      exec .ctlNak s = .next { s with
        lastErr := .handshakeRejected, errStep := k, errInfo := 0x0015#16, timer := 0, st := .retryWait }) ∧
    (s.par.nRetry < s.attempt →
      exec .ctlNak s = .next { s with
        lastErr := .handshakeRejected, errStep := k, errInfo := 0x0015#16, respCode := .handshakeRejected,
        respData := [], respLen := 0, st := .done })

/-- R171: the shared abort, the analogue of trap entry (R196): what is recorded and where control goes. -/
def Obligations.AbortRecordsAndRetries : Prop :=
  ∀ (e : Result) (k : ErrStep) (info : BitVec 16) (s : State),
    (s.attempt ≤ s.par.nRetry →
      abort e k info s = { s with lastErr := e, errStep := k, errInfo := info, timer := 0, st := .retryWait }) ∧
    (s.par.nRetry < s.attempt →
      abort e k info s =
        { s with lastErr := e, errStep := k, errInfo := info, respCode := e, respData := [], respLen := 0, st := .done })

/-- R155, R157, R158, R192: a received byte that no row names rejects the attempt, with the byte as the detail. -/
def Obligations.OtherByteRejectsTheAttempt : Prop :=
  ∀ (s : State) (b : Byte), s.inp.rst = false → got s = some b →
    (s.st = .wAck → b ≠ 0x10#8 → endsWith s (abort .handshakeRejected .step1 (pack 0x00#8 b) s)) ∧
    (s.st = .wEcho → b ≠ 0x02#8 → b ≠ 0x10#8 → endsWith s (abort .handshakeRejected .step2 (pack 0x00#8 b) s)) ∧
    (s.st = .wEcho2 → b ≠ 0x02#8 → endsWith s (abort .handshakeRejected .step2 (pack 0x00#8 b) s))

/-- R168, R155, R157, R158, R162, R192: in a wait state with no byte, a tick below the limit is counted, and the last one
ends the attempt with the step and, in step 3, the number of bytes captured, in 16 bits; without a tick nothing changes. A
number of 65536 or more gives a free value, the model's choice (log entry 9). -/
def Obligations.TicksTimeAWaitOut : Prop :=
  ∀ (s : State) (limit : Nat) (k : ErrStep) (info : BitVec 16), s.inp.rst = false → got s = none →
    ((s.st = .wAck ∧ limit = s.par.tAck ∧ k = .step1 ∧ info = 0#16) ∨
     ((s.st = .wEcho ∨ s.st = .wEcho2) ∧ limit = s.par.tEcho ∧ k = .step2 ∧ info = 0#16) ∨
     (s.st = .rx ∧ limit = s.par.tRx ∧ k = .step3 ∧
        info = if s.rxLen < 65536 then BitVec.ofNat 16 s.rxLen else Config.wideCount s.rxLen)) →
    (s.inp.tick = false → endsWith s s) ∧
    (s.inp.tick = true → s.timer + 1 < limit → endsWith s { s with timer := s.timer + 1 }) ∧
    (s.inp.tick = true → limit ≤ s.timer + 1 → endsWith s (abort .handshakeTimeout k info s))

/-- R169: a byte that leaves its step makes the tick of the same cycle count for nothing; a byte that does not leaves it to
be counted. In RX the count is R162's, with the new number of bytes as the detail (R192); from 65536 on that detail is a free
value, the model's choice (log entry 9). -/
def Obligations.ByteIsHandledBeforeTick : Prop :=
  ∀ (s : State) (b : Byte), got s = some b →
    (byteLeavesStep s b → ∀ x, step (s.withTick x) = step s) ∧
    (s.inp.rst = false → s.st = .wEcho → b = 0x10#8 → s.inp.tick = true →
      endsWith s (count s.par.tEcho .step2 0#16 { s with st := .wEcho2 })) ∧
    (∀ old, s.inp.rst = false → s.st = .rx → rxFull s = false → rxBytes s = some old →
      rxDone s.par.footerMatch (old ++ [b]) = false → s.inp.tick = true →
      endsWith s (count s.par.tRx .step3
        (if s.rxLen + 1 < 65536 then BitVec.ofNat 16 (s.rxLen + 1) else Config.wideCount (s.rxLen + 1))
        { s with rxb := s.rxb.write s.rxLen b, rxLen := s.rxLen + 1 }))

/-! ### Receiving -/

/-- R160: in RX an escape pair's second byte is stored raw at `rx_len`, and the tick of the cycle counts (R162). That the
codes mean the storing of that byte is the model's choice (log entry 12), and so is the free value that the detail of a
timeout is from 65536 bytes on (log entry 9); below, it is the number of bytes (R192). -/
def Obligations.EscapePairsAreStoredRaw : Prop :=
  ∀ (i : Instr) (b : Byte) (s : State) (old : List Byte),
    ((i = .escDle ∧ b = 0x10#8) ∨ (i = .esc2B ∧ b = 0x18#8)) →
    s.st = .rx → s.rxLen < s.par.maxRx → rxBytes s = some old →
    let stored := { s with rxb := s.rxb.write s.rxLen b, rxLen := s.rxLen + 1 }
    let info := if s.rxLen + 1 < 65536 then BitVec.ofNat 16 (s.rxLen + 1) else Config.wideCount (s.rxLen + 1)
    (s.inp.tick = false → exec i s = .next stored) ∧
    (s.inp.tick = true → s.timer + 1 < s.par.tRx → exec i s = .next { stored with timer := s.timer + 1 }) ∧
    (s.inp.tick = true → s.par.tRx ≤ s.timer + 1 →
      exec i s = .next (abort .handshakeTimeout .step3 info stored))

/-- R160, R166: in RX the footer's last byte is stored, and ends the reply, tick or no tick (R169), exactly if the buffer with
it satisfies the completion predicate, written out here; otherwise the step goes on and the tick of the cycle counts (R162).
That FOOTER means the storing of its last byte is the model's choice (log entry 12), and so is the free value that the detail
of a timeout is from 65536 bytes on (log entry 9); below, it is the number of bytes (R192). -/
def Obligations.FooterEndsTheReply : Prop :=
  ∀ (s : State) (old : List Byte), s.st = .rx → s.rxLen < s.par.maxRx → rxBytes s = some old →
    let raw := old ++ [0x03#8]
    let stored := { s with rxb := s.rxb.write s.rxLen 0x03#8, rxLen := s.rxLen + 1 }
    let info := if s.rxLen + 1 < 65536 then BitVec.ofNat 16 (s.rxLen + 1) else Config.wideCount (s.rxLen + 1)
    let ends := 3 ≤ raw.length ∧ raw[0]? = some 0x01#8 ∧ raw[raw.length - 2]? = some 0x10#8 ∧
      (s.par.footerMatch = .literal ∨ (old.reverse.takeWhile (· == 0x10#8)).length % 2 = 1)
    (ends → exec .footer s = .next { stored with st := .txDleAck }) ∧
    (¬ ends → s.inp.tick = false → exec .footer s = .next stored) ∧
    (¬ ends → s.inp.tick = true → s.timer + 1 < s.par.tRx →
      exec .footer s = .next { stored with timer := s.timer + 1 }) ∧
    (¬ ends → s.inp.tick = true → s.par.tRx ≤ s.timer + 1 →
      exec .footer s = .next (abort .handshakeTimeout .step3 info stored))

/-- R161: a byte that finds the receive buffer full is dropped, sets the flag, and ends the attempt as a step-3 timeout with
`rx_len` as the detail, in 16 bits (R192). From 65536 on the detail is a free value, the model's choice (log entry 9), and
that the three codes mean the arrival of their last byte in RX is log entry 12. -/
def Obligations.OverflowEndsTheAttempt : Prop :=
  ∀ s : State, s.st = .rx → s.par.maxRx ≤ s.rxLen →
    let info := if s.rxLen < 65536 then BitVec.ofNat 16 s.rxLen else Config.wideCount s.rxLen
    let ended := abort .handshakeTimeout .step3 info { s with rxOvf := true }
    (∀ i, (i = .escDle ∨ i = .esc2B ∨ i = .footer) → exec i s = .next ended) ∧
    (∀ b, s.inp.rst = false → got s = some b → endsWith s ended)

/-- R160, R162: a step in RX with a byte, whatever the byte: stored, then complete (R166) whatever the tick (R169), or else
the tick of the cycle counted, the last one ending the attempt with the number of bytes as the detail (R192). From 65536 on
that detail is a free value, the model's choice (log entry 9). -/
def Obligations.RxStoresEveryByte : Prop :=
  ∀ (s : State) (b : Byte) (old : List Byte), s.inp.rst = false → s.st = .rx → got s = some b →
    s.rxLen < s.par.maxRx → rxBytes s = some old →
    let stored := { s with rxb := s.rxb.write s.rxLen b, rxLen := s.rxLen + 1 }
    let info := if s.rxLen + 1 < 65536 then BitVec.ofNat 16 (s.rxLen + 1) else Config.wideCount (s.rxLen + 1)
    (rxDone s.par.footerMatch (old ++ [b]) = true → endsWith s { stored with st := .txDleAck }) ∧
    (rxDone s.par.footerMatch (old ++ [b]) = false →
      (s.inp.tick = false → endsWith s stored) ∧
      (s.inp.tick = true → s.timer + 1 < s.par.tRx → endsWith s { stored with timer := s.timer + 1 }) ∧
      (s.inp.tick = true → s.par.tRx ≤ s.timer + 1 → endsWith s (abort .handshakeTimeout .step3 info stored)))

/-! ### Retry, result, and what a cycle leaves alone -/

/-- R164, R165: the delay counts ticks and ends in FLUSH; FLUSH goes to TX_STX with the next attempt's number and an empty
receive buffer. What FLUSH does to the channel is `FlushEmptiesTheChannel`. -/
def Obligations.RetryWaitThenFlushRestarts : Prop :=
  ∀ s : State, s.inp.rst = false →
    (s.st = .retryWait → s.inp.tick = false → endsWith s s) ∧
    (s.st = .retryWait → s.inp.tick = true → s.timer + 1 < s.par.tDelay → endsWith s { s with timer := s.timer + 1 }) ∧
    (s.st = .retryWait → s.inp.tick = true → s.par.tDelay ≤ s.timer + 1 → endsWith s { s with st := .flush }) ∧
    (s.st = .flush →
      endsWith s { s with attempt := s.attempt + 1, rxb := [], rxLen := 0, rxOvf := false, st := .txStx })

/-- R64: in FLUSH every byte held in either direction is discarded, and nothing is sent or received. This includes a reset
cycle in FLUSH, in which R165 does not run: R38 keeps ch_flush at 1 in it (R220), read together against R221's "neither
flushes the channel", an inference of the model (log entry 18). That the bytes of this cycle come after the discard, and that
the line gets none of the bytes held, is the model's form of the channel (log entry 5). -/
def Obligations.FlushEmptiesTheChannel : Prop :=
  ∀ s : State, s.st = .flush →
    txValid s = false ∧ rxReady s = false ∧ chFlush s = true ∧
    ∃ t, step s = .next t ∧ t.chRx = s.inp.arrive ∧ t.chTx = [] ∧ t.line = s.line

/-- R167, R232: DONE goes to IDLE on resp_ack and holds otherwise; the registers, results included, keep their values in
DONE and in IDLE until a request is offered. -/
def Obligations.ResultIsHeldUntilAcknowledged : Prop :=
  ∀ s : State, s.inp.rst = false →
    (s.st = .done → respValid s = true ∧ endsWith s (if s.inp.respAck then { s with st := .idle } else s)) ∧
    (s.st = .idle → s.inp.reqValid = false → endsWith s s)

/-- R173: what the parser finds ends the request in the cycle in which the final DLE is sent, with no retry. -/
def Obligations.ParserResultsAreNotRetried : Prop :=
  ∀ s t : State, s.st = .txDleAck → s.inp.rst = false → s.inp.txReady = true → step s = .next t →
    t.st = .done ∧ t.attempt = s.attempt ∧ t.respCode = t.lastErr

/-- R27, R30, R172: from acceptance on, no step but a reset changes the frame, so every attempt sends the same bytes; the
attempt number changes only in FLUSH, by one. -/
def Obligations.EveryAttemptSendsTheSameFrame : Prop :=
  ∀ s t : State, s.st ≠ .idle → s.inp.rst = false → step s = .next t →
    t.txf = s.txf ∧ t.txfLen = s.txfLen ∧ t.attempt = if s.st = .flush then s.attempt + 1 else s.attempt

/-- R223: no step changes a parameter. -/
def Obligations.ParametersAreStatic : Prop := ∀ s t : State, step s = .next t → t.par = s.par

/-- R65: outside the cycle of acceptance the request inputs have no effect on anything. -/
def Obligations.RequestInputsMatterOnlyAtAcceptance : Prop :=
  ∀ (s : State) (r : Request), (s.st ≠ .idle ∨ s.inp.reqValid = false) → step (s.withReq r) = step s

/-- R175: outside the wait states no byte is taken, and the channel keeps its bytes in order; only FLUSH discards. That the
bytes of this cycle follow them at its end is the model's form of the channel (log entry 5). -/
def Obligations.UntakenBytesStayInTheChannel : Prop :=
  ∀ s t : State, s.st.waits = false → s.st ≠ .flush → step s = .next t →
    rxReady s = false ∧ t.chRx = s.chRx ++ s.inp.arrive

/-- A code in a state in which it is not sent, taken or judged changes nothing (log entry 1; R38, R63, R163, R175). -/
def Obligations.CodesWaitOutsideTheirStates : Prop :=
  ∀ (i : Instr) (s : State), handledIn i s.st = false → exec i s = .next s

/-! ### Buffers, widths, outputs -/

/-- R44: a caller's read at or beyond the length register faults; below it, in a state with the invariant, it gives a byte. -/
def Obligations.UndefinedBytesHaveNoValue : Prop :=
  ∀ (s : State) (i : Nat),
    (s.rxLen ≤ i → ∃ f, readRxRaw s i = .fault f) ∧ (s.respLen ≤ i → ∃ f, readRespData s i = .fault f) ∧
    (Invariant s → i < s.rxLen → ∃ b, readRxRaw s i = .next b) ∧
    (Invariant s → i < s.respLen → ∃ b, readRespData s i = .next b)

/-- Every step keeps the canonical form of the three buffers, in every state that has it. -/
def Obligations.StepKeepsBuffersCanonical : Prop :=
  ∀ s t : State, s.txf.wf = true → s.rxb.wf = true → s.respData.wf = true → step s = .next t →
    t.txf.wf = true ∧ t.rxb.wf = true ∧ t.respData.wf = true

/-- R18, R109: in a state with the invariant every counter and length fits the width that R18, R27 and R30 give it. -/
def Obligations.CountersFitTheirWidths : Prop :=
  ∀ s : State, Invariant s →
    s.txfLen < 2 ^ clog2 (s.par.txfMax + 1) ∧ s.txIdx < 2 ^ clog2 (s.par.txfMax + 1) ∧
    s.timer < 2 ^ clog2 (s.par.maxTime + 1) ∧ s.attempt < 2 ^ clog2 (s.par.nRetry + 2) ∧
    s.rxLen < 2 ^ clog2 (s.par.maxRx + 1) ∧ s.respLen < 2 ^ clog2 (s.par.maxRx + 1)

/-- R38, its table: the handshake outputs and `tx_data` by state; the status outputs as the registers of their names,
`resp_code`, `last_err` and `err_step` in the codes of R190 and R191; the two byte buses as their buffers below the length
register, with no value beyond it (R44). And no input reaches an output in the same cycle. -/
def Obligations.OutputsAreFunctionsOfRegisters : Prop :=
  ∀ s : State,
    let o := outputs s
    let code := fun (r : Result) => match r with
      | .ok => 0#4 | .handshakeTimeout => 1#4 | .handshakeRejected => 2#4 | .frameTooShort => 3#4
      | .checksumMismatch => 4#4 | .devTimingError => 5#4 | .devChecksumError => 6#4 | .devUnknownCommand => 7#4
      | .devUnknownRegister => 8#4 | .unknownHeader => 9#4 | .badRequest => 10#4
    (o.reqReady = true ↔ s.st = .idle) ∧ (o.respValid = true ↔ s.st = .done) ∧
    (o.txValid = true ↔ s.st = .txStx ∨ s.st = .txFrame ∨ s.st = .txDleReq ∨ s.st = .txDleAck) ∧
    (o.rxReady = true ↔ s.st = .wAck ∨ s.st = .wEcho ∨ s.st = .wEcho2 ∨ s.st = .rx) ∧
    (o.chFlush = true ↔ s.st = .flush) ∧
    (s.st = .txStx → o.txData = some 0x02#8) ∧
    (s.st = .txFrame → o.txData = if s.txIdx < s.txfLen then s.txf.read s.txIdx else none) ∧
    (s.st = .txDleReq ∨ s.st = .txDleAck → o.txData = some 0x10#8) ∧
    (o.txValid = false → o.txData = some 0x00#8) ∧
    o.respCode = code s.respCode ∧ o.lastErr = code s.lastErr ∧
    o.errStep = (match s.errStep with | .none => 0#3 | .step1 => 1#3 | .step2 => 2#3 | .step3 => 3#3 | .step4 => 4#3) ∧
    o.errInfo = s.errInfo ∧ o.attempt = s.attempt ∧ o.respLen = s.respLen ∧ o.rxLen = s.rxLen ∧ o.rxOvf = s.rxOvf ∧
    (∀ i, o.respData.read i = (if i < s.respLen then s.respData.read i else none) ∧
      o.rxRaw.read i = if i < s.rxLen then s.rxb.read i else none) ∧
    ∀ (e : List Inputs) (q : List Byte), outputs { s with env := e, chRx := q } = o

/-! ### A request ends -/

/-- R174: in a cycle with a tick, tx_ready and no reset, a request in flight comes strictly closer to its end. -/
def Obligations.LivelyCycleLowersRequestCost : Prop :=
  ∀ s t : State, Invariant s → s.st.inFlight = true → s.inp.lively = true → step s = .next t →
    requestCost t < requestCost s

/-- R174, R172: with a tick and tx_ready in every cycle, every request reaches DONE within the bound, whatever the device
sends, having made at most N_RETRY + 1 attempts. -/
def Obligations.EveryRequestReachesDone : Prop :=
  ∀ s : State, Invariant s → s.st.inFlight = true →
    (∀ k, k < requestCost s → (s.env.getD k Inputs.quiet).lively = true) →
    ∃ n t, n ≤ requestCost s ∧ Host.Core.run Sys2Proof.core n s = .next t ∧ t.st = .done ∧
      t.attempt ≤ t.par.nRetry + 1
end

