-- ==== Sys2Proof/Laws/Codec.lean ====
section
/-! SUPPORT. The small laws of the codec (40_codec.md), the builder (41_frame.md R121) and the receive completion
(42_handshake.md R166), so that no proof unfolds them. -/

namespace Sys2Proof.Machine

@[simp] theorem checksum_nil : checksum [] = 0#8 := rfl

@[simp] theorem checksum_cons (a : Byte) (s : List Byte) : checksum (a :: s) = a + checksum s := rfl

@[simp] theorem escape_nil : escape [] = [] := rfl

@[simp] theorem escape_cons (a : Byte) (s : List Byte) : escape (a :: s) = escapeByte a ++ escape s := rfl

/-- R102: the three branches. -/
theorem escapeByte_cases (a : Byte) :
    (a = dle ∧ escapeByte a = [dle, dle]) ∨ (a = esc2b ∧ escapeByte a = [esc2b, esc18]) ∨
    (a ≠ dle ∧ a ≠ esc2b ∧ escapeByte a = [a]) := by
  by_cases h : a = dle
  · exact .inl ⟨h, by simp [escapeByte, h]⟩
  · by_cases h2 : a = esc2b
    · exact .inr (.inl ⟨h2, by rw [escapeByte, if_neg h, if_pos h2]⟩)
    · exact .inr (.inr ⟨h, h2, by rw [escapeByte, if_neg h, if_neg h2]⟩)

/-- R102: bytes are escaped one by one. -/
theorem escape_append (s t : List Byte) : escape (s ++ t) = escape s ++ escape t := by
  induction s with
  | nil => rfl
  | cons a s ih => simp [ih]

@[simp] theorem unescape_nil : unescape [] = [] := rfl

@[simp] theorem unescape_singleton (a : Byte) : unescape [a] = [a] := rfl

/-- R105: the pair `10 10`. -/
@[simp] theorem unescape_dle_pair (r : List Byte) : unescape (dle :: dle :: r) = dle :: unescape r := by
  simp [unescape]

/-- R105: the pair `2B 18`. -/
@[simp] theorem unescape_2b_pair (r : List Byte) : unescape (esc2b :: esc18 :: r) = esc2b :: unescape r := by
  simp [unescape, dle, esc2b, esc18]

/-- R105, R106: a byte that opens no escape passes. -/
theorem unescape_cons_plain {a : Byte} (h1 : a ≠ dle) (h2 : a ≠ esc2b) (r : List Byte) :
    unescape (a :: r) = a :: unescape r := by
  cases r with
  | nil => rfl
  | cons b r => simp [unescape, h1, h2]

/-- R121: the frame, as one concatenation. -/
theorem build_eq (hdr p : List Byte) :
    build hdr p = hdr ++ (escape (checksum (hdr ++ [0#8] ++ p) :: p) ++ [dle, foot3]) := by
  simp [build, footerBytes]

/-- R166 under LITERAL, byte by byte. -/
theorem rxDone_literal_iff (s : List Byte) :
    rxDone .literal s = true ↔
      3 ≤ s.length ∧ s[0]? = some 0x01#8 ∧ s[s.length - 2]? = some dle ∧ s[s.length - 1]? = some foot3 := by
  by_cases h : 3 ≤ s.length
  · simp only [rxDone, List.getD_eq_getElem?_getD]
    rw [List.getElem?_eq_getElem (by omega), List.getElem?_eq_getElem (by omega), List.getElem?_eq_getElem (by omega)]
    simp [h, and_assoc]
  · simp [rxDone, h]

/-- R166: UNPAIRED_DLE asks for an odd run of `10` besides. -/
theorem rxDone_unpairedDle (s : List Byte) :
    rxDone .unpairedDle s = (rxDone .literal s && dleRun s % 2 == 1) := by
  simp [rxDone]

end Sys2Proof.Machine
end

