-- ==== Sys2Proof/Laws/Memory.lean ====
section
/-! SUPPORT. The laws of the byte buffers: read after write, the canonical form, and sequences laid into a buffer. -/

namespace Sys2Proof.Machine

@[simp] theorem Memory.read_nil (i : Nat) : Memory.read [] i = none := rfl

@[simp] theorem Memory.wf_nil : Memory.wf [] = true := rfl

@[simp] theorem Memory.cellsFrom_nil (i : Nat) : Memory.cellsFrom i [] = [] := rfl

@[simp] theorem Memory.ofBytes_nil : Memory.ofBytes [] = [] := rfl

@[simp] theorem Memory.readRange_zero (m : Memory) (i : Nat) : m.readRange i 0 = some [] := rfl

/-- A read after a write to the same index gives the value written. -/
@[simp] theorem Memory.read_write_same (m : Memory) (i : Nat) (v : Byte) : (m.write i v).read i = some v := by
  induction m with
  | nil => simp [Memory.write, Memory.read]
  | cons c m ih =>
    obtain ⟨j, b⟩ := c
    simp only [Memory.write]
    split
    · simp [Memory.read]
    · split
      · simp [Memory.read]
      · next h1 h2 => simp [Memory.read, h2, ih]

/-- A write leaves every other index alone. -/
theorem Memory.read_write_other (m : Memory) {i j : Nat} (v : Byte) (h : j ≠ i) : (m.write i v).read j = m.read j := by
  induction m with
  | nil => simp [Memory.write, Memory.read, h]
  | cons c m ih =>
    obtain ⟨k, b⟩ := c
    simp only [Memory.write]
    split
    · simp [Memory.read, h]
    · split
      · next h1 h2 => subst h2; simp [Memory.read, h]
      · simp only [Memory.read, ih]

/-- The indices that follow the first cell are larger than its own. -/
theorem Memory.wf_cons (j : Nat) (b : Byte) (m : Memory) :
    Memory.wf ((j, b) :: m) = true ↔ (∀ c ∈ m.head?, j < c.1) ∧ m.wf = true := by
  cases m with
  | nil => simp [Memory.wf]
  | cons c m => obtain ⟨k, x⟩ := c; simp [Memory.wf]

theorem Memory.head_write (m : Memory) (i : Nat) (v : Byte) :
    ∀ c ∈ (m.write i v).head?, c.1 = i ∨ ∃ d ∈ m.head?, c.1 = d.1 := by
  cases m with
  | nil => simp [Memory.write]
  | cons d m =>
    obtain ⟨j, b⟩ := d
    intro c hc
    simp only [Memory.write] at hc
    split at hc
    · simp at hc; simp [← hc]
    · split at hc <;> (simp at hc; simp_all [← hc])

/-- A write keeps the canonical form. -/
theorem Memory.wf_write (m : Memory) (i : Nat) (v : Byte) (h : m.wf = true) : (m.write i v).wf = true := by
  induction m with
  | nil => rfl
  | cons c m ih =>
    obtain ⟨j, b⟩ := c
    obtain ⟨hh, ht⟩ := (Memory.wf_cons j b m).1 h
    simp only [Memory.write]
    split
    · next hij => rw [Memory.wf_cons]; exact ⟨by simpa using hij, h⟩
    · split
      · next hij => subst hij; rw [Memory.wf_cons]; exact ⟨hh, ht⟩
      · next h1 h2 =>
        rw [Memory.wf_cons]
        refine ⟨fun c hc => ?_, ih ht⟩
        rcases Memory.head_write m i v c hc with h3 | ⟨d, hd, h3⟩
        · omega
        · rw [h3]; exact hh d hd

theorem Memory.wf_cellsFrom (s : List Byte) (i : Nat) : (Memory.cellsFrom i s).wf = true := by
  induction s generalizing i with
  | nil => rfl
  | cons b s ih =>
    rw [Memory.cellsFrom, Memory.wf_cons]
    refine ⟨fun c hc => ?_, ih _⟩
    cases s with
    | nil => simp at hc
    | cons x s => simp [Memory.cellsFrom] at hc; subst hc; simp

/-- A sequence laid into a buffer is in canonical form. -/
@[simp] theorem Memory.wf_ofBytes (s : List Byte) : (Memory.ofBytes s).wf = true := Memory.wf_cellsFrom s 0

theorem Memory.read_cellsFrom (s : List Byte) (i k : Nat) :
    (Memory.cellsFrom i s).read k = if i ≤ k then s[k - i]? else none := by
  induction s generalizing i with
  | nil => simp
  | cons b s ih =>
    simp only [Memory.cellsFrom, Memory.read, ih]
    by_cases h : k = i
    · subst h; simp
    · by_cases h2 : i ≤ k
      · have h3 : i + 1 ≤ k := by omega
        have h4 : k - i = (k - (i + 1)) + 1 := by omega
        simp [h, h2, h3, h4]
      · have h3 : ¬ i + 1 ≤ k := by omega
        simp [h, h2, h3]

/-- The byte at an index of a sequence laid into a buffer. -/
@[simp] theorem Memory.read_ofBytes (s : List Byte) (k : Nat) : (Memory.ofBytes s).read k = s[k]? := by
  simp [Memory.ofBytes, Memory.read_cellsFrom]

/-- What a range of a buffer depends on: the bytes in it. -/
theorem Memory.readRange_congr {m m' : Memory} (n i : Nat) (h : ∀ k, i ≤ k → k < i + n → m.read k = m'.read k) :
    m.readRange i n = m'.readRange i n := by
  induction n generalizing i with
  | zero => rfl
  | succ n ih =>
    simp only [Memory.readRange]
    rw [h i (le_refl _) (by omega), ih (i + 1) fun k h1 h2 => h k (by omega) (by omega)]

/-- A buffer cut at a length reads as before below it and has no value beyond. -/
theorem Memory.read_filter_lt (m : Memory) (n i : Nat) :
    Memory.read (m.filter fun c => decide (c.1 < n)) i = if i < n then m.read i else none := by
  induction m with
  | nil => simp
  | cons c m ih =>
    obtain ⟨j, b⟩ := c
    by_cases hj : j < n
    · simp only [List.filter, hj, decide_true, Memory.read, ih]
      by_cases h : i = j
      · subst h; simp [hj]
      · simp [h]
    · simp only [List.filter, hj, decide_false, ih, Memory.read]
      by_cases h : i = j
      · subst h; simp [hj]
      · simp [h]

theorem Memory.readRange_length {m : Memory} {n i : Nat} {s : List Byte} (h : m.readRange i n = some s) :
    s.length = n := by
  induction n generalizing i s with
  | zero => simp at h; simp [← h]
  | succ n ih =>
    simp only [Memory.readRange] at h
    split at h
    · next b bs h1 h2 => cases h; simp [ih h2]
    · cases h

theorem Memory.readRange_cells {m : Memory} (s : List Byte) (i : Nat) (h : ∀ k, k < s.length → m.read (i + k) = s[k]?) :
    m.readRange i s.length = some s := by
  induction s generalizing i with
  | nil => rfl
  | cons b s ih =>
    have h0 : m.read i = some b := by simpa using h 0 (by simp)
    have h1 : m.readRange (i + 1) s.length = some s := by
      refine ih (i + 1) fun k hk => ?_
      have := h (k + 1) (by simpa using hk)
      simpa [Nat.add_assoc, Nat.add_comm 1] using this
    simp [Memory.readRange, h0, h1]

/-- A sequence laid into a buffer reads back as it was. -/
@[simp] theorem Memory.readRange_ofBytes (s : List Byte) : (Memory.ofBytes s).readRange 0 s.length = some s :=
  Memory.readRange_cells s 0 fun k _ => by simp

theorem Memory.map_fst_cellsFrom (s : List Byte) (i : Nat) :
    (Memory.cellsFrom i s).map Prod.fst = List.range' i s.length := by
  induction s generalizing i with
  | nil => rfl
  | cons b s ih => simp [Memory.cellsFrom, ih, List.range'_succ]

/-- A buffer covers the indices of a sequence laid into it. -/
theorem Memory.covers_ofBytes (s : List Byte) : (Memory.ofBytes s).covers s.length = true := by
  simp [Memory.covers, Memory.ofBytes, Memory.map_fst_cellsFrom, List.range_eq_range']

theorem Memory.eq_cellsFrom (m : Memory) (i n : Nat) (h : m.map Prod.fst = List.range' i n) :
    m = Memory.cellsFrom i (m.map Prod.snd) := by
  induction m generalizing i n with
  | nil => rfl
  | cons c m ih =>
    obtain ⟨j, b⟩ := c
    cases n with
    | zero => simp at h
    | succ n =>
      simp only [List.map_cons, List.range'_succ, List.cons.injEq] at h
      simp only [List.map_cons, Memory.cellsFrom, ← ih (i + 1) n h.2, h.1]

/-- A buffer that covers the indices below `n` is a sequence of `n` bytes laid into it. -/
theorem Memory.covers_iff (m : Memory) (n : Nat) :
    m.covers n = true ↔ ∃ s : List Byte, s.length = n ∧ m = Memory.ofBytes s := by
  constructor
  · intro h
    simp only [Memory.covers, beq_iff_eq] at h
    refine ⟨m.map Prod.snd, ?_, Memory.eq_cellsFrom m 0 n (by rw [h, List.range_eq_range'])⟩
    have := congrArg List.length h
    simpa using this
  · rintro ⟨s, rfl, rfl⟩
    exact Memory.covers_ofBytes s

/-- A covering buffer is in canonical form. -/
theorem Memory.wf_of_covers {m : Memory} {n : Nat} (h : m.covers n = true) : m.wf = true := by
  obtain ⟨s, -, rfl⟩ := (Memory.covers_iff m n).1 h
  exact Memory.wf_ofBytes s

theorem Memory.write_cellsFrom (s : List Byte) (i : Nat) (v : Byte) :
    (Memory.cellsFrom i s).write (i + s.length) v = Memory.cellsFrom i (s ++ [v]) := by
  induction s generalizing i with
  | nil => simp [Memory.cellsFrom, Memory.write]
  | cons b s ih =>
    have h := ih (i + 1)
    rw [show i + 1 + s.length = i + (b :: s).length by simp; omega] at h
    simp only [Memory.cellsFrom, List.cons_append, Memory.write, h]
    rw [if_neg (by simp), if_neg (by simp)]

/-- Writing just beyond a sequence laid into a buffer appends to it. -/
theorem Memory.write_ofBytes (s : List Byte) (v : Byte) :
    (Memory.ofBytes s).write s.length v = Memory.ofBytes (s ++ [v]) := by
  simpa [Memory.ofBytes] using Memory.write_cellsFrom s 0 v

/-- A covering buffer gives a value to all of its range. -/
theorem Memory.readRange_of_covers {m : Memory} {n : Nat} (h : m.covers n = true) :
    ∃ s : List Byte, s.length = n ∧ m = Memory.ofBytes s ∧ m.readRange 0 n = some s := by
  obtain ⟨s, rfl, rfl⟩ := (Memory.covers_iff m n).1 h
  exact ⟨s, rfl, rfl, Memory.readRange_ofBytes s⟩

end Sys2Proof.Machine
end

