-- ==== Sys2Proof/Laws/State.lean ====
section
/-! SUPPORT. One lemma per field per update of the state: what each named update leaves in each register. -/

namespace Sys2Proof.Machine

/-! ### resetBlock (R220, R43) -/

@[simp] theorem resetBlock_par (s : State) : (resetBlock s).par = s.par := rfl
@[simp] theorem resetBlock_st (s : State) : (resetBlock s).st = .idle := rfl
@[simp] theorem resetBlock_txf (s : State) : (resetBlock s).txf = [] := rfl
@[simp] theorem resetBlock_txfLen (s : State) : (resetBlock s).txfLen = 0 := rfl
@[simp] theorem resetBlock_txIdx (s : State) : (resetBlock s).txIdx = 0 := rfl
@[simp] theorem resetBlock_timer (s : State) : (resetBlock s).timer = 0 := rfl
@[simp] theorem resetBlock_attempt (s : State) : (resetBlock s).attempt = 0 := rfl
@[simp] theorem resetBlock_rxb (s : State) : (resetBlock s).rxb = [] := rfl
@[simp] theorem resetBlock_rxLen (s : State) : (resetBlock s).rxLen = 0 := rfl
@[simp] theorem resetBlock_rxOvf (s : State) : (resetBlock s).rxOvf = false := rfl
@[simp] theorem resetBlock_lastErr (s : State) : (resetBlock s).lastErr = .ok := rfl
@[simp] theorem resetBlock_errStep (s : State) : (resetBlock s).errStep = .none := rfl
@[simp] theorem resetBlock_errInfo (s : State) : (resetBlock s).errInfo = 0#16 := rfl
@[simp] theorem resetBlock_respCode (s : State) : (resetBlock s).respCode = .ok := rfl
@[simp] theorem resetBlock_respData (s : State) : (resetBlock s).respData = [] := rfl
@[simp] theorem resetBlock_respLen (s : State) : (resetBlock s).respLen = 0 := rfl
@[simp] theorem resetBlock_chRx (s : State) : (resetBlock s).chRx = s.chRx := rfl
@[simp] theorem resetBlock_chTx (s : State) : (resetBlock s).chTx = s.chTx := rfl
@[simp] theorem resetBlock_line (s : State) : (resetBlock s).line = s.line := rfl
@[simp] theorem resetBlock_env (s : State) : (resetBlock s).env = s.env := rfl

/-! ### accept (R153) -/

@[simp] theorem accept_par (hdr p : List Byte) (s : State) : (accept hdr p s).par = s.par := rfl
@[simp] theorem accept_st (hdr p : List Byte) (s : State) : (accept hdr p s).st = .txStx := rfl
@[simp] theorem accept_txf (hdr p : List Byte) (s : State) : (accept hdr p s).txf = Memory.ofBytes (build hdr p) := rfl
@[simp] theorem accept_txfLen (hdr p : List Byte) (s : State) : (accept hdr p s).txfLen = (build hdr p).length := rfl
@[simp] theorem accept_txIdx (hdr p : List Byte) (s : State) : (accept hdr p s).txIdx = 0 := rfl
@[simp] theorem accept_timer (hdr p : List Byte) (s : State) : (accept hdr p s).timer = 0 := rfl
@[simp] theorem accept_attempt (hdr p : List Byte) (s : State) : (accept hdr p s).attempt = 1 := rfl
@[simp] theorem accept_rxb (hdr p : List Byte) (s : State) : (accept hdr p s).rxb = [] := rfl
@[simp] theorem accept_rxLen (hdr p : List Byte) (s : State) : (accept hdr p s).rxLen = 0 := rfl
@[simp] theorem accept_rxOvf (hdr p : List Byte) (s : State) : (accept hdr p s).rxOvf = false := rfl
@[simp] theorem accept_lastErr (hdr p : List Byte) (s : State) : (accept hdr p s).lastErr = .ok := rfl
@[simp] theorem accept_errStep (hdr p : List Byte) (s : State) : (accept hdr p s).errStep = .none := rfl
@[simp] theorem accept_errInfo (hdr p : List Byte) (s : State) : (accept hdr p s).errInfo = 0#16 := rfl
@[simp] theorem accept_respCode (hdr p : List Byte) (s : State) : (accept hdr p s).respCode = .ok := rfl
@[simp] theorem accept_respData (hdr p : List Byte) (s : State) : (accept hdr p s).respData = [] := rfl
@[simp] theorem accept_respLen (hdr p : List Byte) (s : State) : (accept hdr p s).respLen = 0 := rfl
@[simp] theorem accept_chRx (hdr p : List Byte) (s : State) : (accept hdr p s).chRx = s.chRx := rfl
@[simp] theorem accept_chTx (hdr p : List Byte) (s : State) : (accept hdr p s).chTx = s.chTx := rfl
@[simp] theorem accept_line (hdr p : List Byte) (s : State) : (accept hdr p s).line = s.line := rfl
@[simp] theorem accept_env (hdr p : List Byte) (s : State) : (accept hdr p s).env = s.env := rfl

/-! ### refuseRequest (R152) -/

@[simp] theorem refuseRequest_par (s : State) : (refuseRequest s).par = s.par := rfl
@[simp] theorem refuseRequest_st (s : State) : (refuseRequest s).st = .done := rfl
@[simp] theorem refuseRequest_txf (s : State) : (refuseRequest s).txf = s.txf := rfl
@[simp] theorem refuseRequest_txfLen (s : State) : (refuseRequest s).txfLen = s.txfLen := rfl
@[simp] theorem refuseRequest_txIdx (s : State) : (refuseRequest s).txIdx = s.txIdx := rfl
@[simp] theorem refuseRequest_timer (s : State) : (refuseRequest s).timer = s.timer := rfl
@[simp] theorem refuseRequest_attempt (s : State) : (refuseRequest s).attempt = 0 := rfl
@[simp] theorem refuseRequest_rxb (s : State) : (refuseRequest s).rxb = [] := rfl
@[simp] theorem refuseRequest_rxLen (s : State) : (refuseRequest s).rxLen = 0 := rfl
@[simp] theorem refuseRequest_rxOvf (s : State) : (refuseRequest s).rxOvf = false := rfl
@[simp] theorem refuseRequest_lastErr (s : State) : (refuseRequest s).lastErr = .badRequest := rfl
@[simp] theorem refuseRequest_errStep (s : State) : (refuseRequest s).errStep = .none := rfl
@[simp] theorem refuseRequest_errInfo (s : State) : (refuseRequest s).errInfo = 0#16 := rfl
@[simp] theorem refuseRequest_respCode (s : State) : (refuseRequest s).respCode = .badRequest := rfl
@[simp] theorem refuseRequest_respData (s : State) : (refuseRequest s).respData = [] := rfl
@[simp] theorem refuseRequest_respLen (s : State) : (refuseRequest s).respLen = 0 := rfl
@[simp] theorem refuseRequest_chRx (s : State) : (refuseRequest s).chRx = s.chRx := rfl
@[simp] theorem refuseRequest_chTx (s : State) : (refuseRequest s).chTx = s.chTx := rfl
@[simp] theorem refuseRequest_line (s : State) : (refuseRequest s).line = s.line := rfl
@[simp] theorem refuseRequest_env (s : State) : (refuseRequest s).env = s.env := rfl

/-! ### stxSent (R154) -/

@[simp] theorem stxSent_par (s : State) : (stxSent s).par = s.par := rfl
@[simp] theorem stxSent_st (s : State) : (stxSent s).st = .wAck := rfl
@[simp] theorem stxSent_txf (s : State) : (stxSent s).txf = s.txf := rfl
@[simp] theorem stxSent_txfLen (s : State) : (stxSent s).txfLen = s.txfLen := rfl
@[simp] theorem stxSent_txIdx (s : State) : (stxSent s).txIdx = s.txIdx := rfl
@[simp] theorem stxSent_timer (s : State) : (stxSent s).timer = 0 := rfl
@[simp] theorem stxSent_attempt (s : State) : (stxSent s).attempt = s.attempt := rfl
@[simp] theorem stxSent_rxb (s : State) : (stxSent s).rxb = s.rxb := rfl
@[simp] theorem stxSent_rxLen (s : State) : (stxSent s).rxLen = s.rxLen := rfl
@[simp] theorem stxSent_rxOvf (s : State) : (stxSent s).rxOvf = s.rxOvf := rfl
@[simp] theorem stxSent_lastErr (s : State) : (stxSent s).lastErr = s.lastErr := rfl
@[simp] theorem stxSent_errStep (s : State) : (stxSent s).errStep = s.errStep := rfl
@[simp] theorem stxSent_errInfo (s : State) : (stxSent s).errInfo = s.errInfo := rfl
@[simp] theorem stxSent_respCode (s : State) : (stxSent s).respCode = s.respCode := rfl
@[simp] theorem stxSent_respData (s : State) : (stxSent s).respData = s.respData := rfl
@[simp] theorem stxSent_respLen (s : State) : (stxSent s).respLen = s.respLen := rfl
@[simp] theorem stxSent_chRx (s : State) : (stxSent s).chRx = s.chRx := rfl
@[simp] theorem stxSent_chTx (s : State) : (stxSent s).chTx = s.chTx := rfl
@[simp] theorem stxSent_line (s : State) : (stxSent s).line = s.line := rfl
@[simp] theorem stxSent_env (s : State) : (stxSent s).env = s.env := rfl

/-! ### ackReceived (R155) -/

@[simp] theorem ackReceived_par (s : State) : (ackReceived s).par = s.par := rfl
@[simp] theorem ackReceived_st (s : State) : (ackReceived s).st = .txFrame := rfl
@[simp] theorem ackReceived_txf (s : State) : (ackReceived s).txf = s.txf := rfl
@[simp] theorem ackReceived_txfLen (s : State) : (ackReceived s).txfLen = s.txfLen := rfl
@[simp] theorem ackReceived_txIdx (s : State) : (ackReceived s).txIdx = 0 := rfl
@[simp] theorem ackReceived_timer (s : State) : (ackReceived s).timer = s.timer := rfl
@[simp] theorem ackReceived_attempt (s : State) : (ackReceived s).attempt = s.attempt := rfl
@[simp] theorem ackReceived_rxb (s : State) : (ackReceived s).rxb = s.rxb := rfl
@[simp] theorem ackReceived_rxLen (s : State) : (ackReceived s).rxLen = s.rxLen := rfl
@[simp] theorem ackReceived_rxOvf (s : State) : (ackReceived s).rxOvf = s.rxOvf := rfl
@[simp] theorem ackReceived_lastErr (s : State) : (ackReceived s).lastErr = s.lastErr := rfl
@[simp] theorem ackReceived_errStep (s : State) : (ackReceived s).errStep = s.errStep := rfl
@[simp] theorem ackReceived_errInfo (s : State) : (ackReceived s).errInfo = s.errInfo := rfl
@[simp] theorem ackReceived_respCode (s : State) : (ackReceived s).respCode = s.respCode := rfl
@[simp] theorem ackReceived_respData (s : State) : (ackReceived s).respData = s.respData := rfl
@[simp] theorem ackReceived_respLen (s : State) : (ackReceived s).respLen = s.respLen := rfl
@[simp] theorem ackReceived_chRx (s : State) : (ackReceived s).chRx = s.chRx := rfl
@[simp] theorem ackReceived_chTx (s : State) : (ackReceived s).chTx = s.chTx := rfl
@[simp] theorem ackReceived_line (s : State) : (ackReceived s).line = s.line := rfl
@[simp] theorem ackReceived_env (s : State) : (ackReceived s).env = s.env := rfl

/-! ### echoComplete (R157, R158) -/

@[simp] theorem echoComplete_par (s : State) : (echoComplete s).par = s.par := rfl
@[simp] theorem echoComplete_st (s : State) : (echoComplete s).st = .txDleReq := rfl
@[simp] theorem echoComplete_txf (s : State) : (echoComplete s).txf = s.txf := rfl
@[simp] theorem echoComplete_txfLen (s : State) : (echoComplete s).txfLen = s.txfLen := rfl
@[simp] theorem echoComplete_txIdx (s : State) : (echoComplete s).txIdx = s.txIdx := rfl
@[simp] theorem echoComplete_timer (s : State) : (echoComplete s).timer = s.timer := rfl
@[simp] theorem echoComplete_attempt (s : State) : (echoComplete s).attempt = s.attempt := rfl
@[simp] theorem echoComplete_rxb (s : State) : (echoComplete s).rxb = s.rxb := rfl
@[simp] theorem echoComplete_rxLen (s : State) : (echoComplete s).rxLen = s.rxLen := rfl
@[simp] theorem echoComplete_rxOvf (s : State) : (echoComplete s).rxOvf = s.rxOvf := rfl
@[simp] theorem echoComplete_lastErr (s : State) : (echoComplete s).lastErr = s.lastErr := rfl
@[simp] theorem echoComplete_errStep (s : State) : (echoComplete s).errStep = s.errStep := rfl
@[simp] theorem echoComplete_errInfo (s : State) : (echoComplete s).errInfo = s.errInfo := rfl
@[simp] theorem echoComplete_respCode (s : State) : (echoComplete s).respCode = s.respCode := rfl
@[simp] theorem echoComplete_respData (s : State) : (echoComplete s).respData = s.respData := rfl
@[simp] theorem echoComplete_respLen (s : State) : (echoComplete s).respLen = s.respLen := rfl
@[simp] theorem echoComplete_chRx (s : State) : (echoComplete s).chRx = s.chRx := rfl
@[simp] theorem echoComplete_chTx (s : State) : (echoComplete s).chTx = s.chTx := rfl
@[simp] theorem echoComplete_line (s : State) : (echoComplete s).line = s.line := rfl
@[simp] theorem echoComplete_env (s : State) : (echoComplete s).env = s.env := rfl

/-! ### requestSent (R159) -/

@[simp] theorem requestSent_par (s : State) : (requestSent s).par = s.par := rfl
@[simp] theorem requestSent_st (s : State) : (requestSent s).st = .rx := rfl
@[simp] theorem requestSent_txf (s : State) : (requestSent s).txf = s.txf := rfl
@[simp] theorem requestSent_txfLen (s : State) : (requestSent s).txfLen = s.txfLen := rfl
@[simp] theorem requestSent_txIdx (s : State) : (requestSent s).txIdx = s.txIdx := rfl
@[simp] theorem requestSent_timer (s : State) : (requestSent s).timer = 0 := rfl
@[simp] theorem requestSent_attempt (s : State) : (requestSent s).attempt = s.attempt := rfl
@[simp] theorem requestSent_rxb (s : State) : (requestSent s).rxb = [] := rfl
@[simp] theorem requestSent_rxLen (s : State) : (requestSent s).rxLen = 0 := rfl
@[simp] theorem requestSent_rxOvf (s : State) : (requestSent s).rxOvf = false := rfl
@[simp] theorem requestSent_lastErr (s : State) : (requestSent s).lastErr = s.lastErr := rfl
@[simp] theorem requestSent_errStep (s : State) : (requestSent s).errStep = s.errStep := rfl
@[simp] theorem requestSent_errInfo (s : State) : (requestSent s).errInfo = s.errInfo := rfl
@[simp] theorem requestSent_respCode (s : State) : (requestSent s).respCode = s.respCode := rfl
@[simp] theorem requestSent_respData (s : State) : (requestSent s).respData = s.respData := rfl
@[simp] theorem requestSent_respLen (s : State) : (requestSent s).respLen = s.respLen := rfl
@[simp] theorem requestSent_chRx (s : State) : (requestSent s).chRx = s.chRx := rfl
@[simp] theorem requestSent_chTx (s : State) : (requestSent s).chTx = s.chTx := rfl
@[simp] theorem requestSent_line (s : State) : (requestSent s).line = s.line := rfl
@[simp] theorem requestSent_env (s : State) : (requestSent s).env = s.env := rfl

/-! ### storeByte (R160) -/

@[simp] theorem storeByte_par (b : Byte) (s : State) : (storeByte b s).par = s.par := rfl
@[simp] theorem storeByte_st (b : Byte) (s : State) : (storeByte b s).st = s.st := rfl
@[simp] theorem storeByte_txf (b : Byte) (s : State) : (storeByte b s).txf = s.txf := rfl
@[simp] theorem storeByte_txfLen (b : Byte) (s : State) : (storeByte b s).txfLen = s.txfLen := rfl
@[simp] theorem storeByte_txIdx (b : Byte) (s : State) : (storeByte b s).txIdx = s.txIdx := rfl
@[simp] theorem storeByte_timer (b : Byte) (s : State) : (storeByte b s).timer = s.timer := rfl
@[simp] theorem storeByte_attempt (b : Byte) (s : State) : (storeByte b s).attempt = s.attempt := rfl
@[simp] theorem storeByte_rxb (b : Byte) (s : State) : (storeByte b s).rxb = s.rxb.write s.rxLen b := rfl
@[simp] theorem storeByte_rxLen (b : Byte) (s : State) : (storeByte b s).rxLen = s.rxLen + 1 := rfl
@[simp] theorem storeByte_rxOvf (b : Byte) (s : State) : (storeByte b s).rxOvf = s.rxOvf := rfl
@[simp] theorem storeByte_lastErr (b : Byte) (s : State) : (storeByte b s).lastErr = s.lastErr := rfl
@[simp] theorem storeByte_errStep (b : Byte) (s : State) : (storeByte b s).errStep = s.errStep := rfl
@[simp] theorem storeByte_errInfo (b : Byte) (s : State) : (storeByte b s).errInfo = s.errInfo := rfl
@[simp] theorem storeByte_respCode (b : Byte) (s : State) : (storeByte b s).respCode = s.respCode := rfl
@[simp] theorem storeByte_respData (b : Byte) (s : State) : (storeByte b s).respData = s.respData := rfl
@[simp] theorem storeByte_respLen (b : Byte) (s : State) : (storeByte b s).respLen = s.respLen := rfl
@[simp] theorem storeByte_chRx (b : Byte) (s : State) : (storeByte b s).chRx = s.chRx := rfl
@[simp] theorem storeByte_chTx (b : Byte) (s : State) : (storeByte b s).chTx = s.chTx := rfl
@[simp] theorem storeByte_line (b : Byte) (s : State) : (storeByte b s).line = s.line := rfl
@[simp] theorem storeByte_env (b : Byte) (s : State) : (storeByte b s).env = s.env := rfl

/-! ### retryRestart (R165) -/

@[simp] theorem retryRestart_par (s : State) : (retryRestart s).par = s.par := rfl
@[simp] theorem retryRestart_st (s : State) : (retryRestart s).st = .txStx := rfl
@[simp] theorem retryRestart_txf (s : State) : (retryRestart s).txf = s.txf := rfl
@[simp] theorem retryRestart_txfLen (s : State) : (retryRestart s).txfLen = s.txfLen := rfl
@[simp] theorem retryRestart_txIdx (s : State) : (retryRestart s).txIdx = s.txIdx := rfl
@[simp] theorem retryRestart_timer (s : State) : (retryRestart s).timer = s.timer := rfl
@[simp] theorem retryRestart_attempt (s : State) : (retryRestart s).attempt = s.attempt + 1 := rfl
@[simp] theorem retryRestart_rxb (s : State) : (retryRestart s).rxb = [] := rfl
@[simp] theorem retryRestart_rxLen (s : State) : (retryRestart s).rxLen = 0 := rfl
@[simp] theorem retryRestart_rxOvf (s : State) : (retryRestart s).rxOvf = false := rfl
@[simp] theorem retryRestart_lastErr (s : State) : (retryRestart s).lastErr = s.lastErr := rfl
@[simp] theorem retryRestart_errStep (s : State) : (retryRestart s).errStep = s.errStep := rfl
@[simp] theorem retryRestart_errInfo (s : State) : (retryRestart s).errInfo = s.errInfo := rfl
@[simp] theorem retryRestart_respCode (s : State) : (retryRestart s).respCode = s.respCode := rfl
@[simp] theorem retryRestart_respData (s : State) : (retryRestart s).respData = s.respData := rfl
@[simp] theorem retryRestart_respLen (s : State) : (retryRestart s).respLen = s.respLen := rfl
@[simp] theorem retryRestart_chRx (s : State) : (retryRestart s).chRx = s.chRx := rfl
@[simp] theorem retryRestart_chTx (s : State) : (retryRestart s).chTx = s.chTx := rfl
@[simp] theorem retryRestart_line (s : State) : (retryRestart s).line = s.line := rfl
@[simp] theorem retryRestart_env (s : State) : (retryRestart s).env = s.env := rfl

/-! ### releaseResult (R167) -/

@[simp] theorem releaseResult_par (s : State) : (releaseResult s).par = s.par := rfl
@[simp] theorem releaseResult_st (s : State) : (releaseResult s).st = .idle := rfl
@[simp] theorem releaseResult_txf (s : State) : (releaseResult s).txf = s.txf := rfl
@[simp] theorem releaseResult_txfLen (s : State) : (releaseResult s).txfLen = s.txfLen := rfl
@[simp] theorem releaseResult_txIdx (s : State) : (releaseResult s).txIdx = s.txIdx := rfl
@[simp] theorem releaseResult_timer (s : State) : (releaseResult s).timer = s.timer := rfl
@[simp] theorem releaseResult_attempt (s : State) : (releaseResult s).attempt = s.attempt := rfl
@[simp] theorem releaseResult_rxb (s : State) : (releaseResult s).rxb = s.rxb := rfl
@[simp] theorem releaseResult_rxLen (s : State) : (releaseResult s).rxLen = s.rxLen := rfl
@[simp] theorem releaseResult_rxOvf (s : State) : (releaseResult s).rxOvf = s.rxOvf := rfl
@[simp] theorem releaseResult_lastErr (s : State) : (releaseResult s).lastErr = s.lastErr := rfl
@[simp] theorem releaseResult_errStep (s : State) : (releaseResult s).errStep = s.errStep := rfl
@[simp] theorem releaseResult_errInfo (s : State) : (releaseResult s).errInfo = s.errInfo := rfl
@[simp] theorem releaseResult_respCode (s : State) : (releaseResult s).respCode = s.respCode := rfl
@[simp] theorem releaseResult_respData (s : State) : (releaseResult s).respData = s.respData := rfl
@[simp] theorem releaseResult_respLen (s : State) : (releaseResult s).respLen = s.respLen := rfl
@[simp] theorem releaseResult_chRx (s : State) : (releaseResult s).chRx = s.chRx := rfl
@[simp] theorem releaseResult_chTx (s : State) : (releaseResult s).chTx = s.chTx := rfl
@[simp] theorem releaseResult_line (s : State) : (releaseResult s).line = s.line := rfl
@[simp] theorem releaseResult_env (s : State) : (releaseResult s).env = s.env := rfl

/-! ### State.reset -/

/-- The buffers are in canonical form right after reset. -/
theorem reset_buffers_wf :
    State.reset.txf.wf = true ∧ State.reset.rxb.wf = true ∧ State.reset.respData.wf = true := ⟨rfl, rfl, rfl⟩

end Sys2Proof.Machine
end

