-- ==== Sys2Proof/Laws/Ops.lean ====
section
/-! SUPPORT. One lemma per shared operation that says once all it can do: "if it answers next t, then ..." or "it is one of
these states". Proofs cite these and do not unfold the operation. -/

namespace Sys2Proof.Machine

/-! ### Sequencing -/

@[simp] theorem andThen_next (s : State) (f : State → Answer) : andThen (.next s) f = f s := rfl

theorem andThen_eq_next {o : Answer} {f : State → Answer} {u : State} :
    andThen o f = .next u ↔ ∃ t, o = .next t ∧ f t = .next u := by
  cases o <;> simp [andThen]

/-! ### abort (R171) -/

theorem abort_retry {e : Result} {k : ErrStep} {info : BitVec 16} {s : State} (h : s.attempt ≤ s.par.nRetry) :
    abort e k info s = { s with lastErr := e, errStep := k, errInfo := info, timer := 0, st := .retryWait } := by
  simp [abort, h]

theorem abort_last {e : Result} {k : ErrStep} {info : BitVec 16} {s : State} (h : ¬ s.attempt ≤ s.par.nRetry) :
    abort e k info s =
      { s with lastErr := e, errStep := k, errInfo := info, respCode := e, respData := [], respLen := 0, st := .done } := by
  simp [abort, h]

/-- R171: RETRY_WAIT while a retry remains, else DONE. -/
theorem abort_cases (e : Result) (k : ErrStep) (info : BitVec 16) (s : State) :
    (s.attempt ≤ s.par.nRetry ∧
      abort e k info s = { s with lastErr := e, errStep := k, errInfo := info, timer := 0, st := .retryWait }) ∨
    (s.par.nRetry < s.attempt ∧
      abort e k info s =
        { s with lastErr := e, errStep := k, errInfo := info, respCode := e, respData := [], respLen := 0, st := .done }) := by
  by_cases h : s.attempt ≤ s.par.nRetry
  · exact .inl ⟨h, abort_retry h⟩
  · exact .inr ⟨by omega, abort_last h⟩

@[simp] theorem abort_par (e : Result) (k : ErrStep) (info : BitVec 16) (s : State) : (abort e k info s).par = s.par := by
  unfold abort; split <;> rfl
@[simp] theorem abort_txf (e : Result) (k : ErrStep) (info : BitVec 16) (s : State) : (abort e k info s).txf = s.txf := by
  unfold abort; split <;> rfl
@[simp] theorem abort_txfLen (e : Result) (k : ErrStep) (info : BitVec 16) (s : State) : (abort e k info s).txfLen = s.txfLen := by
  unfold abort; split <;> rfl
@[simp] theorem abort_txIdx (e : Result) (k : ErrStep) (info : BitVec 16) (s : State) : (abort e k info s).txIdx = s.txIdx := by
  unfold abort; split <;> rfl
@[simp] theorem abort_attempt (e : Result) (k : ErrStep) (info : BitVec 16) (s : State) : (abort e k info s).attempt = s.attempt := by
  unfold abort; split <;> rfl
@[simp] theorem abort_rxb (e : Result) (k : ErrStep) (info : BitVec 16) (s : State) : (abort e k info s).rxb = s.rxb := by
  unfold abort; split <;> rfl
@[simp] theorem abort_rxLen (e : Result) (k : ErrStep) (info : BitVec 16) (s : State) : (abort e k info s).rxLen = s.rxLen := by
  unfold abort; split <;> rfl
@[simp] theorem abort_rxOvf (e : Result) (k : ErrStep) (info : BitVec 16) (s : State) : (abort e k info s).rxOvf = s.rxOvf := by
  unfold abort; split <;> rfl
@[simp] theorem abort_chRx (e : Result) (k : ErrStep) (info : BitVec 16) (s : State) : (abort e k info s).chRx = s.chRx := by
  unfold abort; split <;> rfl
@[simp] theorem abort_chTx (e : Result) (k : ErrStep) (info : BitVec 16) (s : State) : (abort e k info s).chTx = s.chTx := by
  unfold abort; split <;> rfl
@[simp] theorem abort_line (e : Result) (k : ErrStep) (info : BitVec 16) (s : State) : (abort e k info s).line = s.line := by
  unfold abort; split <;> rfl
@[simp] theorem abort_env (e : Result) (k : ErrStep) (info : BitVec 16) (s : State) : (abort e k info s).env = s.env := by
  unfold abort; split <;> rfl
@[simp] theorem abort_lastErr (e : Result) (k : ErrStep) (info : BitVec 16) (s : State) : (abort e k info s).lastErr = e := by
  unfold abort; split <;> rfl
@[simp] theorem abort_errStep (e : Result) (k : ErrStep) (info : BitVec 16) (s : State) : (abort e k info s).errStep = k := by
  unfold abort; split <;> rfl
@[simp] theorem abort_errInfo (e : Result) (k : ErrStep) (info : BitVec 16) (s : State) : (abort e k info s).errInfo = info := by
  unfold abort; split <;> rfl

/-! ### countInfo (R192) -/

/-- R192: a count below 65536 is the detail itself. -/
theorem countInfo_of_lt {n : Nat} (h : n < 65536) : countInfo n = BitVec.ofNat 16 n := if_pos h

/-- Log entry 9: a larger count gives the free value. -/
theorem countInfo_of_ge {n : Nat} (h : 65536 ≤ n) : countInfo n = Config.wideCount n := if_neg (by omega)

/-! ### count, countTick (R168, R169) -/

/-- R168: the last tick times the step out; any other is counted. -/
theorem count_cases (limit : Nat) (k : ErrStep) (info : BitVec 16) (s : State) :
    (limit ≤ s.timer + 1 ∧ count limit k info s = abort .handshakeTimeout k info s) ∨
    (s.timer + 1 < limit ∧ count limit k info s = { s with timer := s.timer + 1 }) := by
  unfold count; split
  · next h => exact .inl ⟨h, rfl⟩
  · next h => exact .inr ⟨by omega, rfl⟩

/-- R169: without a tick nothing is counted. -/
theorem countTick_cases (limit : Nat) (k : ErrStep) (info : BitVec 16) (s : State) :
    (s.inp.tick = false ∧ countTick limit k info s = s) ∨
    (s.inp.tick = true ∧ limit ≤ s.timer + 1 ∧ countTick limit k info s = abort .handshakeTimeout k info s) ∨
    (s.inp.tick = true ∧ s.timer + 1 < limit ∧ countTick limit k info s = { s with timer := s.timer + 1 }) := by
  unfold countTick
  cases h : s.inp.tick
  · exact .inl ⟨rfl, by simp⟩
  · rcases count_cases limit k info s with ⟨h1, h2⟩ | ⟨h1, h2⟩
    · exact .inr (.inl ⟨rfl, h1, by simpa using h2⟩)
    · exact .inr (.inr ⟨rfl, h1, by simpa using h2⟩)

@[simp] theorem countTick_par (limit : Nat) (k : ErrStep) (info : BitVec 16) (s : State) : (countTick limit k info s).par = s.par := by
  unfold countTick count; split <;> [split <;> simp; rfl]
@[simp] theorem countTick_txf (limit : Nat) (k : ErrStep) (info : BitVec 16) (s : State) : (countTick limit k info s).txf = s.txf := by
  unfold countTick count; split <;> [split <;> simp; rfl]
@[simp] theorem countTick_txfLen (limit : Nat) (k : ErrStep) (info : BitVec 16) (s : State) : (countTick limit k info s).txfLen = s.txfLen := by
  unfold countTick count; split <;> [split <;> simp; rfl]
@[simp] theorem countTick_txIdx (limit : Nat) (k : ErrStep) (info : BitVec 16) (s : State) : (countTick limit k info s).txIdx = s.txIdx := by
  unfold countTick count; split <;> [split <;> simp; rfl]
@[simp] theorem countTick_attempt (limit : Nat) (k : ErrStep) (info : BitVec 16) (s : State) : (countTick limit k info s).attempt = s.attempt := by
  unfold countTick count; split <;> [split <;> simp; rfl]
@[simp] theorem countTick_rxb (limit : Nat) (k : ErrStep) (info : BitVec 16) (s : State) : (countTick limit k info s).rxb = s.rxb := by
  unfold countTick count; split <;> [split <;> simp; rfl]
@[simp] theorem countTick_rxLen (limit : Nat) (k : ErrStep) (info : BitVec 16) (s : State) : (countTick limit k info s).rxLen = s.rxLen := by
  unfold countTick count; split <;> [split <;> simp; rfl]
@[simp] theorem countTick_rxOvf (limit : Nat) (k : ErrStep) (info : BitVec 16) (s : State) : (countTick limit k info s).rxOvf = s.rxOvf := by
  unfold countTick count; split <;> [split <;> simp; rfl]
@[simp] theorem countTick_chRx (limit : Nat) (k : ErrStep) (info : BitVec 16) (s : State) : (countTick limit k info s).chRx = s.chRx := by
  unfold countTick count; split <;> [split <;> simp; rfl]
@[simp] theorem countTick_chTx (limit : Nat) (k : ErrStep) (info : BitVec 16) (s : State) : (countTick limit k info s).chTx = s.chTx := by
  unfold countTick count; split <;> [split <;> simp; rfl]
@[simp] theorem countTick_line (limit : Nat) (k : ErrStep) (info : BitVec 16) (s : State) : (countTick limit k info s).line = s.line := by
  unfold countTick count; split <;> [split <;> simp; rfl]
@[simp] theorem countTick_env (limit : Nat) (k : ErrStep) (info : BitVec 16) (s : State) : (countTick limit k info s).env = s.env := by
  unfold countTick count; split <;> [split <;> simp; rfl]

/-! ### frameByteSent (R156), delayTick (R164) -/

theorem frameByteSent_cases (s : State) :
    (s.txIdx + 1 = s.txfLen ∧ frameByteSent s = { s with timer := 0, st := .wEcho }) ∨
    (s.txIdx + 1 ≠ s.txfLen ∧ frameByteSent s = { s with txIdx := s.txIdx + 1 }) := by
  unfold frameByteSent; split
  · next h => exact .inl ⟨h, rfl⟩
  · next h => exact .inr ⟨h, rfl⟩

theorem delayTick_cases (s : State) :
    (s.par.tDelay ≤ s.timer + 1 ∧ delayTick s = { s with st := .flush }) ∨
    (s.timer + 1 < s.par.tDelay ∧ delayTick s = { s with timer := s.timer + 1 }) := by
  unfold delayTick; split
  · next h => exact .inl ⟨h, rfl⟩
  · next h => exact .inr ⟨by omega, rfl⟩

/-! ### receiveByte (R160 to R162) -/

/-- What a byte in RX can do: overflow, completion, or one more byte and perhaps a tick. -/
theorem receiveByte_next {b : Byte} {s t : State} (h : receiveByte b s = .next t) :
    (rxFull s = true ∧
      t = abort .handshakeTimeout .step3 (countInfo s.rxLen) { s with rxOvf := true }) ∨
    (rxFull s = false ∧ ∃ old, rxBytes s = some old ∧
      ((rxDone s.par.footerMatch (old ++ [b]) = true ∧ t = { storeByte b s with st := .txDleAck }) ∨
       (rxDone s.par.footerMatch (old ++ [b]) = false ∧
        t = countTick s.par.tRx .step3 (countInfo (s.rxLen + 1)) (storeByte b s)))) := by
  unfold receiveByte at h
  split at h
  · next hf => exact .inl ⟨hf, by simpa using h.symm⟩
  · next hf =>
    refine .inr ⟨by simpa using hf, ?_⟩
    split at h
    · cases h
    · next old ho =>
      refine ⟨old, ho, ?_⟩
      split at h
      · next hd => exact .inl ⟨hd, by simpa using h.symm⟩
      · next hd => exact .inr ⟨by simpa using hd, by simpa using h.symm⟩

/-! ### finish, finishReply (R163) -/

theorem finish_next {r : Parsed} {s t : State} (h : finish r s = .next t) :
    r.data.length ≤ s.par.maxRx ∧
    t = { s with
      respCode := r.code, lastErr := r.code, errInfo := r.info,
      errStep := if r.code = .ok then .none else .step4,
      respData := Memory.ofBytes r.data, respLen := r.data.length, st := .done } := by
  unfold finish at h
  split at h
  · next hl => exact ⟨hl, by simpa using h.symm⟩
  · cases h

theorem finishReply_next {s t : State} (h : finishReply s = .next t) :
    ∃ raw, rxBytes s = some raw ∧ finish (parse raw) s = .next t := by
  unfold finishReply at h
  split at h
  · cases h
  · next raw hr => exact ⟨raw, hr, h⟩

/-! ### closeCycle -/

/-- The environment's side of a cycle leaves every register as it is. -/
theorem closeCycle_next {s t u : State} (h : closeCycle s t = .next u) :
    ∃ out : List Byte,
      ((sent s = false ∧ out = []) ∨ (sent s = true ∧ ∃ b, txData s = some b ∧ out = [b])) ∧
      u = { t with
        chRx := chRxNext s, chTx := (chTxAccepted s out).drop s.inp.drain,
        line := s.line ++ (chTxAccepted s out).take s.inp.drain, env := s.env.drop 1 } := by
  unfold closeCycle at h
  split at h
  · next hs =>
    split at h
    · next b hb => exact ⟨[b], .inr ⟨hs, b, hb, rfl⟩, by simpa using h.symm⟩
    · cases h
  · next hs => exact ⟨[], .inl ⟨by simpa using hs, rfl⟩, by simpa using h.symm⟩

/-! ### step -/

/-- The instruction a cycle runs is what the decoder reads from the code presented. -/
theorem fetch_eq_some {s : State} {i : Instr} : fetch s = some i ↔ ∃ c, presented s = some c ∧ decode c = .ok i := by
  unfold fetch
  cases presented s with
  | none => simp
  | some c => cases h : decode c <;> simp [h]

/-- What a step that answers a next state did: reset, the meaning of a code, or the rule of a cycle without one; then the
environment's side. -/
theorem step_next {s u : State} (h : step s = .next u) :
    ∃ t, closeCycle s t = .next u ∧
      ((s.inp.rst = true ∧ t = resetBlock s) ∨
       (s.inp.rst = false ∧ ∃ i, fetch s = some i ∧ exec i s = .next t) ∨
       (s.inp.rst = false ∧ fetch s = none ∧ rule s = .next t)) := by
  unfold step at h
  split at h
  · next hr => exact ⟨_, h, .inl ⟨hr, rfl⟩⟩
  · next hr =>
    split at h
    · next i hi =>
      obtain ⟨t, h1, h2⟩ := andThen_eq_next.1 h
      exact ⟨t, h2, .inr (.inl ⟨by simpa using hr, i, hi, h1⟩)⟩
    · next hi =>
      obtain ⟨t, h1, h2⟩ := andThen_eq_next.1 h
      exact ⟨t, h2, .inr (.inr ⟨by simpa using hr, hi, h1⟩)⟩

end Sys2Proof.Machine
end

