-- ==== Sys2Proof/Laws/PerInstr.lean ====
section
/-! SUPPORT. The per-instruction family of LAWS.json: the encoding of every instruction holds at least one byte, or is the
request port's. -/

namespace Sys2Proof.Laws

/-- The request port carries the instruction, or a non-empty byte sequence on the wire does (30_encoding.md). -/
def EncodingNotEmpty.Statement (i : Instr) : Prop :=
  match encode i with
  | .port _ => True
  | .wire _ bs => bs ≠ []

theorem EncodingNotEmpty.read (n : BitVec 2) (c0 c1 c2 : Byte) : EncodingNotEmpty.Statement (.read n c0 c1 c2) := by
  trivial

theorem EncodingNotEmpty.write (n : BitVec 2) (c0 c1 c2 : Byte) (k : Nat) (d : List Byte) : EncodingNotEmpty.Statement (.write n c0 c1 c2 k d) := by
  trivial

theorem EncodingNotEmpty.frmGetReq (cmd : List Byte) : EncodingNotEmpty.Statement (.frmGetReq cmd) := by
  simp [EncodingNotEmpty.Statement, encode, Machine.build, Machine.hdrGet]

theorem EncodingNotEmpty.frmSetReq (payload : List Byte) : EncodingNotEmpty.Statement (.frmSetReq payload) := by
  simp [EncodingNotEmpty.Statement, encode, Machine.build, Machine.hdrSet]

theorem EncodingNotEmpty.rplGetOk (cs : Byte) (payload : List Byte) (f0 f1 : Byte) : EncodingNotEmpty.Statement (.rplGetOk cs payload f0 f1) := by
  simp [EncodingNotEmpty.Statement, encode, Machine.wireFrame]

theorem EncodingNotEmpty.rplSetAck (rest : List Byte) : EncodingNotEmpty.Statement (.rplSetAck rest) := by
  simp [EncodingNotEmpty.Statement, encode, Machine.wireFrame]

theorem EncodingNotEmpty.rplErrTiming (rest : List Byte) : EncodingNotEmpty.Statement (.rplErrTiming rest) := by
  simp [EncodingNotEmpty.Statement, encode, Machine.wireFrame]

theorem EncodingNotEmpty.rplErrChecksum (rest : List Byte) : EncodingNotEmpty.Statement (.rplErrChecksum rest) := by
  simp [EncodingNotEmpty.Statement, encode, Machine.wireFrame]

theorem EncodingNotEmpty.rplErrUnknownCmd (rest : List Byte) : EncodingNotEmpty.Statement (.rplErrUnknownCmd rest) := by
  simp [EncodingNotEmpty.Statement, encode, Machine.wireFrame]

theorem EncodingNotEmpty.rplErrUnknownReg (rest : List Byte) : EncodingNotEmpty.Statement (.rplErrUnknownReg rest) := by
  simp [EncodingNotEmpty.Statement, encode, Machine.wireFrame]

theorem EncodingNotEmpty.rplUnknownHeader (h0 h1 : Byte) (rest : List Byte) : EncodingNotEmpty.Statement (.rplUnknownHeader h0 h1 rest) := by
  simp [EncodingNotEmpty.Statement, encode, Machine.wireFrame]

theorem EncodingNotEmpty.ctlStxOut : EncodingNotEmpty.Statement .ctlStxOut := by
  simp [EncodingNotEmpty.Statement, encode]

theorem EncodingNotEmpty.ctlDleAckIn : EncodingNotEmpty.Statement .ctlDleAckIn := by
  simp [EncodingNotEmpty.Statement, encode]

theorem EncodingNotEmpty.ctlNak : EncodingNotEmpty.Statement .ctlNak := by
  simp [EncodingNotEmpty.Statement, encode]

theorem EncodingNotEmpty.ctlEchoDleStx : EncodingNotEmpty.Statement .ctlEchoDleStx := by
  simp [EncodingNotEmpty.Statement, encode]

theorem EncodingNotEmpty.ctlEchoStx : EncodingNotEmpty.Statement .ctlEchoStx := by
  simp [EncodingNotEmpty.Statement, encode]

theorem EncodingNotEmpty.ctlDleReq : EncodingNotEmpty.Statement .ctlDleReq := by
  simp [EncodingNotEmpty.Statement, encode]

theorem EncodingNotEmpty.ctlDleAckOut : EncodingNotEmpty.Statement .ctlDleAckOut := by
  simp [EncodingNotEmpty.Statement, encode]

theorem EncodingNotEmpty.escDle : EncodingNotEmpty.Statement .escDle := by
  simp [EncodingNotEmpty.Statement, encode]

theorem EncodingNotEmpty.esc2B : EncodingNotEmpty.Statement .esc2B := by
  simp [EncodingNotEmpty.Statement, encode]

theorem EncodingNotEmpty.footer : EncodingNotEmpty.Statement .footer := by
  simp [EncodingNotEmpty.Statement, encode]

end Sys2Proof.Laws
end

