-- ==== Sys2Proof/Tests/Slice0.lean ====
section
/-! SUPPORT. Tests: one step each, on small states; the expected results are those of spec/95_test_vectors.md (named by
their vector) and of the worked examples of the rules. At the end, for every statement with hypotheses, states and operands
that meet them. -/

namespace Sys2Proof.Tests

open Sys2Proof Sys2Proof.Machine

/-! ### Helpers -/

/-- Nothing but a tick. -/
def ticking : Inputs := { Inputs.quiet with tick := true }

/-- The channel takes a byte. -/
def taking : Inputs := { Inputs.quiet with txReady := true }

/-- The channel offers its oldest byte. -/
def offering : Inputs := { Inputs.quiet with rxOffer := true }

/-- Time passes and the channel takes bytes. -/
def lively : Inputs := { Inputs.quiet with tick := true, txReady := true }

/-- A READ of FB in flight, `st` at `x`, with these inputs and these bytes in the channel. -/
def inState (x : St) (i : Inputs) (rx : List Byte) : State :=
  { accept hdrGet [0xFB#8] State.reset with st := x, env := [i], chRx := rx }

/-- The same with a receive buffer. -/
def received (x : St) (old : List Byte) (i : Inputs) (rx : List Byte) : State :=
  { inState x i rx with rxb := Memory.ofBytes old, rxLen := old.length }

/-- The next state, if there is one. -/
def next? (o : Answer) : Option State :=
  match o with
  | .next s => some s
  | _ => none

/-- The fault, if there is one. -/
def fault? (o : Answer) : Option Fault :=
  match o with
  | .fault r => some r
  | _ => none

/-- The result registers: code, last error, step, detail, data length. -/
def result (s : State) : Result × Result × ErrStep × BitVec 16 × Nat :=
  (s.respCode, s.lastErr, s.errStep, s.errInfo, s.respLen)

/-- The reply of program P1. -/
def replyP1 : List Byte := [0x01#8, 0x00#8, 0xCB#8, 0xFB#8, 0xFD#8, 0xA8#8, 0x00#8, 0x2A#8, 0x10#8, 0x03#8]

/-! ### The codec: vectors C, E, U -/

theorem test_checksum : checksum [] = 0x00#8 ∧ checksum [0xFF#8, 0x01#8] = 0x00#8 ∧
    checksum [0x01#8, 0x00#8, 0x00#8, 0xFB#8] = 0xFC#8 ∧ checksum [0xFF#8, 0xFF#8, 0xFF#8] = 0xFD#8 := by decide

theorem test_escape : escape [0x10#8, 0x2B#8] = [0x10#8, 0x10#8, 0x2B#8, 0x18#8] ∧
    escape [0x2B#8, 0x18#8] = [0x2B#8, 0x18#8, 0x18#8] ∧ escape [0x03#8, 0x02#8, 0x15#8] = [0x03#8, 0x02#8, 0x15#8] ∧
    escape [0x10#8, 0x03#8] = [0x10#8, 0x10#8, 0x03#8] := by decide

theorem test_unescape : unescape [0x10#8, 0x10#8, 0x10#8] = [0x10#8, 0x10#8] ∧
    unescape [0x2B#8, 0x2B#8, 0x18#8] = [0x2B#8, 0x2B#8] ∧
    unescape [0x2B#8, 0x10#8, 0x10#8, 0x18#8] = [0x2B#8, 0x10#8, 0x18#8] ∧ unescape [0x10#8] = [0x10#8] := by decide

/-! ### Frames: vectors F, Q, D -/

theorem test_build_read : buildRead [0xFB#8] = [0x01#8, 0x00#8, 0xFC#8, 0xFB#8, 0x10#8, 0x03#8] ∧
    buildRead [0x0F#8] = [0x01#8, 0x00#8, 0x10#8, 0x10#8, 0x0F#8, 0x10#8, 0x03#8] ∧
    buildRead [0x10#8] = [0x01#8, 0x00#8, 0x11#8, 0x10#8, 0x10#8, 0x10#8, 0x03#8] := by decide

theorem test_build_write :
    buildWrite [0x0A#8, 0x01#8, 0x12#8] [0x00#8, 0xC8#8] =
      [0x01#8, 0x80#8, 0x66#8, 0x0A#8, 0x01#8, 0x12#8, 0x00#8, 0xC8#8, 0x10#8, 0x03#8] ∧
    buildWrite [0x7F#8] [] = [0x01#8, 0x80#8, 0x00#8, 0x7F#8, 0x10#8, 0x03#8] ∧
    buildWrite [0x01#8] [0x10#8, 0x03#8] =
      [0x01#8, 0x80#8, 0x95#8, 0x01#8, 0x10#8, 0x10#8, 0x03#8, 0x10#8, 0x03#8] := by decide

theorem test_parse_success : parse replyP1 = ⟨.ok, [0xFB#8, 0xFD#8, 0xA8#8, 0x00#8, 0x2A#8], 0x0000#16⟩ ∧
    parse [0x01#8, 0x00#8, 0x01#8, 0x10#8, 0x03#8] = ⟨.ok, [], 0x0000#16⟩ ∧
    parse [0x01#8, 0x80#8, 0x10#8, 0x03#8, 0x55#8] = ⟨.ok, [0x10#8, 0x03#8, 0x55#8], 0x0000#16⟩ ∧
    parse [0x01#8, 0x00#8, 0x2B#8, 0x2A#8, 0x10#8, 0x03#8] = ⟨.ok, [0x2A#8], 0x0000#16⟩ := by decide

theorem test_parse_errors : parse [0x01#8, 0x00#8, 0x10#8, 0x10#8, 0x10#8, 0x03#8] = ⟨.checksumMismatch, [], 0x0110#16⟩ ∧
    parse [0x01#8, 0x00#8, 0x63#8, 0xFA#8, 0x10#8, 0x10#8, 0x03#8] = ⟨.checksumMismatch, [], 0xFB63#16⟩ ∧
    parse [0x02#8, 0x00#8, 0x00#8, 0x10#8, 0x03#8] = ⟨.unknownHeader, [], 0x0200#16⟩ ∧
    parse [0x01#8, 0x01#8, 0x10#8, 0x03#8] = ⟨.frameTooShort, [], 0x0004#16⟩ ∧
    parse [] = ⟨.frameTooShort, [], 0x0000#16⟩ := by decide

theorem test_rx_done_literal : rxDone .literal [0x10#8, 0x03#8] = false ∧ rxDone .literal [0x01#8, 0x10#8, 0x03#8] = true ∧
    rxDone .literal [0x00#8, 0x10#8, 0x03#8] = false ∧ rxDone .literal [0x01#8, 0x10#8, 0x10#8, 0x03#8] = true ∧
    rxDone .literal [0x01#8, 0x03#8] = false := by decide

theorem test_rx_done_unpaired : rxDone .unpairedDle [0x01#8, 0x10#8, 0x03#8] = true ∧
    rxDone .unpairedDle [0x01#8, 0x00#8, 0x10#8, 0x10#8, 0x03#8] = false ∧
    rxDone .unpairedDle [0x01#8, 0x00#8, 0x10#8, 0x10#8, 0x10#8, 0x03#8] = true := by decide

/-- The codes of R26, R190 and R191 at both ends of their ranges. -/
theorem test_codes : St.idle.code = 0#4 ∧ St.rx.code = 7#4 ∧ St.done.code = 11#4 ∧ Result.ok.code = 0#4 ∧
    Result.checksumMismatch.code = 4#4 ∧ Result.badRequest.code = 10#4 ∧ ErrStep.step4.code = 4#3 := by decide

/-! ### WellFormed: each check refuses an ill-formed term -/

theorem test_wf_write_wlen_width : Instr.wf Params.std (.write 1#2 0#8 0#8 0#8 15 (List.replicate 8 0#8)) = true ∧
    Instr.wf Params.std (.write 1#2 0#8 0#8 0#8 16 (List.replicate 8 0#8)) = false := by decide

theorem test_wf_write_bus_width : Instr.wf Params.std (.write 1#2 0#8 0#8 0#8 1 (List.replicate 7 0#8)) = false := by decide

theorem test_wf_get_frame : Instr.wf Params.std (.frmGetReq []) = false ∧
    Instr.wf Params.std (.frmGetReq [1#8, 2#8, 3#8]) = true ∧
    Instr.wf Params.std (.frmGetReq [1#8, 2#8, 3#8, 4#8]) = false := by decide

theorem test_wf_set_frame : Instr.wf Params.std (.frmSetReq []) = false ∧
    Instr.wf Params.std (.frmSetReq (List.replicate 11 1#8)) = true ∧
    Instr.wf Params.std (.frmSetReq (List.replicate 12 1#8)) = false := by decide

theorem test_wf_reply_short : Instr.wf Params.std (.rplSetAck [0x10#8, 0x03#8]) = false ∧
    Instr.wf Params.std (.rplErrTiming [0x10#8, 0x03#8]) = false := by decide

theorem test_wf_reply_footer : Instr.wf Params.std (.rplGetOk 1#8 [] 0x10#8 0x04#8) = false ∧
    Instr.wf Params.std (.rplErrChecksum [0#8, 0x03#8, 0x10#8]) = false ∧
    Instr.wf Params.std (.rplErrUnknownCmd [0#8, 0#8, 0x03#8]) = false := by decide

theorem test_wf_reply_long : Instr.wf Params.std (.rplGetOk 1#8 (List.replicate 59 0#8) 0x10#8 0x03#8) = true ∧
    Instr.wf Params.std (.rplGetOk 1#8 (List.replicate 60 0#8) 0x10#8 0x03#8) = false ∧
    Instr.wf Params.std (.rplErrUnknownReg (List.replicate 61 0#8 ++ [0x10#8, 0x03#8])) = false := by decide

theorem test_wf_unknown_header : Instr.wf Params.std (.rplUnknownHeader 0x01#8 0x05#8 [6#8, 0x10#8, 0x03#8]) = true ∧
    Instr.wf Params.std (.rplUnknownHeader 0x01#8 0x04#8 [6#8, 0x10#8, 0x03#8]) = false ∧
    Instr.wf Params.std (.rplUnknownHeader 0x10#8 0x05#8 [6#8, 0x10#8, 0x03#8]) = false ∧
    Instr.wf Params.std (.rplUnknownHeader 0x01#8 0x2B#8 [6#8, 0x10#8, 0x03#8]) = false := by decide

/-! ### Decoding: one word per constructor, written from the formats of 30_encoding.md -/

/-- R80: req_kind 0 is READ, 1 is WRITE. -/
theorem test_decode_read :
    decode (.port { kind := 0#1, cmdLen := 3#2, cmd0 := 0x0A#8, cmd1 := 0x01#8, cmd2 := 0x12#8, wlen := 5, wdata := [7#8] }) =
    .ok (.read 3#2 0x0A#8 0x01#8 0x12#8) := by decide

theorem test_decode_write :
    decode (.port { kind := 1#1, cmdLen := 1#2, cmd0 := 0x7F#8, cmd1 := 0#8, cmd2 := 0#8, wlen := 1, wdata := [9#8] }) =
    .ok (.write 1#2 0x7F#8 0#8 0#8 1 [9#8]) := by decide

/-- F-5. -/
theorem test_decode_get_frame :
    decode (.wire .frame [0x01#8, 0x00#8, 0x1E#8, 0x0A#8, 0x01#8, 0x12#8, 0x10#8, 0x03#8]) =
    .ok (.frmGetReq [0x0A#8, 0x01#8, 0x12#8]) := by decide

/-- F-7. -/
theorem test_decode_set_frame :
    decode (.wire .frame [0x01#8, 0x80#8, 0xCB#8, 0x0A#8, 0x05#8, 0x10#8, 0x10#8, 0x2B#8, 0x18#8, 0x10#8, 0x03#8]) =
    .ok (.frmSetReq [0x0A#8, 0x05#8, 0x10#8, 0x2B#8]) := by decide

/-- A sent frame with a wrong checksum byte is no request frame (R81). -/
theorem test_decode_frame_refused :
    decode (.wire .frame [0x01#8, 0x00#8, 0xFD#8, 0xFB#8, 0x10#8, 0x03#8]) = .reject .notARequestFrame := by decide

/-- Q-1, Q-4. -/
theorem test_decode_replies :
    decode (.wire .reply replyP1) =
      .ok (.rplGetOk 0xCB#8 [0xFB#8, 0xFD#8, 0xA8#8, 0x00#8, 0x2A#8] 0x10#8 0x03#8) ∧
    decode (.wire .reply [0x01#8, 0x80#8, 0x81#8, 0x10#8, 0x03#8]) = .ok (.rplSetAck [0x81#8, 0x10#8, 0x03#8]) := by decide

/-- Q-6 to Q-10. -/
theorem test_decode_error_replies :
    decode (.wire .reply [0x01#8, 0x01#8, 0x00#8, 0x10#8, 0x03#8]) = .ok (.rplErrTiming [0x00#8, 0x10#8, 0x03#8]) ∧
    decode (.wire .reply [0x01#8, 0x02#8, 0x00#8, 0x10#8, 0x03#8]) = .ok (.rplErrChecksum [0x00#8, 0x10#8, 0x03#8]) ∧
    decode (.wire .reply [0x01#8, 0x03#8, 0x04#8, 0x10#8, 0x03#8]) = .ok (.rplErrUnknownCmd [0x04#8, 0x10#8, 0x03#8]) ∧
    decode (.wire .reply [0x01#8, 0x04#8, 0x05#8, 0x10#8, 0x03#8]) = .ok (.rplErrUnknownReg [0x05#8, 0x10#8, 0x03#8]) ∧
    decode (.wire .reply [0x01#8, 0x05#8, 0x06#8, 0x10#8, 0x03#8]) =
      .ok (.rplUnknownHeader 0x01#8 0x05#8 [0x06#8, 0x10#8, 0x03#8]) := by decide

/-- Q-12: length before header (R131). -/
theorem test_decode_reply_short :
    decode (.wire .reply [0x01#8, 0x01#8, 0x10#8, 0x03#8]) = .reject (.replyTooShort 4) := by decide

/-- R73: each control byte in its place; R83: any other byte is no code. -/
theorem test_decode_control :
    decode (.wire .stxOut [0x02#8]) = .ok .ctlStxOut ∧ decode (.wire .ackIn [0x10#8]) = .ok .ctlDleAckIn ∧
    decode (.wire .ackIn [0x15#8]) = .ok .ctlNak ∧ decode (.wire .echo [0x10#8, 0x02#8]) = .ok .ctlEchoDleStx ∧
    decode (.wire .echo2 [0x02#8]) = .ok .ctlEchoDleStx ∧ decode (.wire .echo [0x02#8]) = .ok .ctlEchoStx ∧
    decode (.wire .dleReq [0x10#8]) = .ok .ctlDleReq ∧ decode (.wire .ackOut [0x10#8]) = .ok .ctlDleAckOut ∧
    decode (.wire .ackIn [0x02#8]) = .reject (.notACode .ackIn [0x02#8]) := by decide

/-- R72, R74. -/
theorem test_decode_pairs :
    decode (.wire .pair [0x10#8, 0x10#8]) = .ok .escDle ∧ decode (.wire .pair [0x2B#8, 0x18#8]) = .ok .esc2B ∧
    decode (.wire .pair [0x10#8, 0x03#8]) = .ok .footer ∧
    decode (.wire .pair [0x10#8, 0x18#8]) = .reject (.notACode .pair [0x10#8, 0x18#8]) := by decide

/-- Words of spec/opcode_table.json: bit 0 of the request word, control bytes, pairs, reply headers. -/
theorem test_table_words :
    decodeTableWord 8 0 = some (.read 0#2 0#8 0#8 0#8) ∧ decodeTableWord 8 1 = some (.write 0#2 0#8 0#8 0#8 0 []) ∧
    decodeTableWord 8 0x02 = some .ctlStxOut ∧ decodeTableWord 8 0x15 = some .ctlNak ∧
    decodeTableWord 16 0x1002 = some .ctlEchoDleStx ∧ decodeTableWord 16 0x1010 = some .escDle ∧
    decodeTableWord 16 0x2B18 = some .esc2B ∧ decodeTableWord 16 0x1003 = some .footer ∧
    decodeTableWord 16 0x0180 = some (.rplSetAck [0#8, 0#8, 0#8]) ∧
    decodeTableWord 16 0x0103 = some (.rplErrUnknownCmd [0#8, 0#8, 0#8]) ∧
    decodeTableWord 0 0 = some (.rplUnknownHeader 0#8 0#8 [0#8, 0#8, 0#8]) := by decide

/-- The word placed is the instruction that the next step runs. -/
theorem test_fetch_word :
    (fetch (State.reset.withFetchWord 8 1) = decodeTableWord 8 1 ∧ fetch (State.reset.withFetchWord 8 0x02) = some .ctlStxOut) ∧
    (fetch (State.reset.withFetchWord 8 0x10) = some .ctlDleAckIn ∧
      fetch (State.reset.withFetchWord 16 0x1002) = some .ctlEchoDleStx) ∧
    (fetch (State.reset.withFetchWord 16 0x1010) = some .escDle ∧
      fetch (State.reset.withFetchWord 16 0x2B18) = some .esc2B ∧ fetch (State.reset.withFetchWord 16 0x1003) = some .footer) ∧
    fetch (State.reset.withFetchWord 16 0x0104) = decodeTableWord 16 0x0104 := by decide

/-! ### Instructions: at most two one-step tests each -/

/-- READ FB (program P1, cycle 0). -/
theorem test_read : (next? (exec (.read 1#2 0xFB#8 0#8 0#8) State.reset)).map
      (fun t => (t.st, txBytes t, t.txfLen, t.attempt)) =
    some (.txStx, some [0x01#8, 0x00#8, 0xFC#8, 0xFB#8, 0x10#8, 0x03#8], 6, 1) := by decide

/-- H-10. -/
theorem test_read_bad : (next? (exec (.read 0#2 0xFB#8 0#8 0#8) State.reset)).map (fun t => (t.st, result t)) =
    some (.done, (.badRequest, .badRequest, .none, 0#16, 0)) := by decide

/-- F-7 (program P3, cycle 0). -/
theorem test_write : (next? (exec (.write 3#2 0x0A#8 0x05#8 0x10#8 1 (0x2B#8 :: List.replicate 7 0#8)) State.reset)).map
      (fun t => (t.st, txBytes t)) =
    some (.txStx, some [0x01#8, 0x80#8, 0xCB#8, 0x0A#8, 0x05#8, 0x10#8, 0x10#8, 0x2B#8, 0x18#8, 0x10#8, 0x03#8]) := by decide

/-- R127: req_wlen = 9 under MAX_WDATA = 8 (95_test_vectors.md, BAD_REQUEST cases). -/
theorem test_write_bad : (next? (exec (.write 1#2 0x0A#8 0#8 0#8 9 (List.replicate 8 0#8)) State.reset)).map
      (fun t => (t.st, result t)) = some (.done, (.badRequest, .badRequest, .none, 0#16, 0)) := by decide

/-- R154. -/
theorem test_stx_out : (next? (step (inState .txStx taking []))).map (fun t => (t.st, t.timer, t.chTx)) =
    some (.wAck, 0, [0x02#8]) := by decide

/-- R155, program P1 cycle 2: the acknowledge is taken and gone. -/
theorem test_dle_ack_in : (next? (step (inState .wAck offering [0x10#8, 0x55#8]))).map (fun t => (t.st, t.txIdx, t.chRx)) =
    some (.txFrame, 0, [0x55#8]) := by decide

/-- Program P7, cycle 2. -/
theorem test_nak : (next? (step (inState .wAck offering [0x15#8]))).map (fun t => (t.st, t.lastErr, t.errStep, t.errInfo)) =
    some (.retryWait, .handshakeRejected, .step1, 0x0015#16) := by decide

/-- H-12, last attempt: a NAK after the DLE of step 2 surfaces the error. -/
theorem test_nak_last :
    (next? (exec .ctlNak { inState .wEcho2 offering [0x15#8] with attempt := 3 })).map (fun t => (t.st, result t)) =
    some (.done, (.handshakeRejected, .handshakeRejected, .step2, 0x0015#16, 0)) := by decide

/-- R156: the first frame byte, and the last. -/
theorem test_get_frame : (next? (step (inState .txFrame taking []))).map (fun t => (t.st, t.txIdx, t.chTx)) =
    some (.txFrame, 1, [0x01#8]) := by decide

theorem test_get_frame_last : (next? (exec (.frmGetReq [0xFB#8]) { inState .txFrame taking [] with txIdx := 5 })).map
    (fun t => (t.st, t.timer)) = some (.wEcho, 0) := by decide

/-- R156 on the frame F-9. -/
theorem test_set_frame : (next? (exec (.frmSetReq [0x7F#8]) { accept hdrSet [0x7F#8] State.reset with st := .txFrame })).map
    (fun t => (t.st, t.txIdx)) = some (.txFrame, 1) := by decide

/-- R157, R158: `10` then `02`, program P1 cycles 9 and 10. -/
theorem test_echo_dle : (next? (step (inState .wEcho offering [0x10#8, 0x02#8]))).map (fun t => (t.st, t.chRx)) =
    some (.wEcho2, [0x02#8]) := by decide

theorem test_echo_stx_second : (next? (step (inState .wEcho2 offering [0x02#8]))).map (·.st) = some .txDleReq := by decide

/-- R157: a bare STX, program P3. -/
theorem test_echo_stx : (next? (step (inState .wEcho offering [0x02#8]))).map (·.st) = some .txDleReq := by decide

/-- R159: step 3 starts with an empty buffer. -/
theorem test_dle_req : (next? (step (received .txDleReq [7#8] taking []))).map (fun t => (t.st, t.rxLen, t.rxb, t.chTx)) =
    some (.rx, 0, [], [0x10#8]) := by decide

/-- R163 on the reply of program P1, cycle 22. -/
theorem test_dle_ack_out : (next? (exec .ctlDleAckOut (received .txDleAck replyP1 taking []))).map (fun t => (t.st, result t)) =
    some (.done, (.ok, .ok, .none, 0#16, 5)) := by decide

/-- Program P15: a four-byte reply. -/
theorem test_dle_ack_out_short :
    (next? (step (received .txDleAck [0x01#8, 0x01#8, 0x10#8, 0x03#8] taking []))).map (fun t => (t.st, result t)) =
    some (.done, (.frameTooShort, .frameTooShort, .step4, 0x0004#16, 0)) := by decide

/-- Program P1, its result. -/
theorem test_get_ok : (next? (step (received .txDleAck replyP1 taking []))).map
      (fun t => (t.respCode, t.respLen, t.respData.readRange 0 5, t.chTx)) =
    some (.ok, 5, some [0xFB#8, 0xFD#8, 0xA8#8, 0x00#8, 0x2A#8], [0x10#8]) := by decide

/-- Program P13: computed CB over received CC. -/
theorem test_get_mismatch :
    (next? (exec (.rplGetOk 0xCC#8 [0xFB#8, 0xFD#8, 0xA8#8, 0x00#8, 0x2A#8] 0x10#8 0x03#8) (inState .txDleAck taking []))).map result =
    some (.checksumMismatch, .checksumMismatch, .step4, 0xCBCC#16, 0) := by decide

/-- Program P3: everything after the header. -/
theorem test_set_ack : (next? (step (received .txDleAck [0x01#8, 0x80#8, 0x81#8, 0x10#8, 0x03#8] taking []))).map
      (fun t => (t.respCode, t.respLen, t.respData.readRange 0 3)) =
    some (.ok, 3, some [0x81#8, 0x10#8, 0x03#8]) := by decide

/-- Q-6 to Q-10 and program P14. -/
theorem test_err_timing : (next? (step (received .txDleAck [0x01#8, 0x01#8, 0x00#8, 0x10#8, 0x03#8] taking []))).map result =
    some (.devTimingError, .devTimingError, .step4, 0x0101#16, 0) := by decide

theorem test_err_checksum : (next? (step (received .txDleAck [0x01#8, 0x02#8, 0x00#8, 0x10#8, 0x03#8] taking []))).map result =
    some (.devChecksumError, .devChecksumError, .step4, 0x0102#16, 0) := by decide

theorem test_err_unknown_cmd : (next? (step (received .txDleAck [0x01#8, 0x03#8, 0x04#8, 0x10#8, 0x03#8] taking []))).map result =
    some (.devUnknownCommand, .devUnknownCommand, .step4, 0x0103#16, 0) := by decide

theorem test_err_unknown_reg : (next? (step (received .txDleAck [0x01#8, 0x04#8, 0x05#8, 0x10#8, 0x03#8] taking []))).map result =
    some (.devUnknownRegister, .devUnknownRegister, .step4, 0x0104#16, 0) := by decide

theorem test_unknown_header : (next? (step (received .txDleAck [0x01#8, 0x05#8, 0x06#8, 0x10#8, 0x03#8] taking []))).map result =
    some (.unknownHeader, .unknownHeader, .step4, 0x0105#16, 0) := by decide

/-- R160: the second byte of a pair is stored raw; in TX_FRAME the pair of F-4 is sent a byte at a time. -/
theorem test_esc_dle : (next? (step (received .rx [0x01#8, 0x00#8, 0x10#8] offering [0x10#8]))).map
      (fun t => (t.st, t.rxLen, t.rxb.read 3)) = some (.rx, 4, some 0x10#8) := by decide

theorem test_esc_dle_sent :
    (fetch { accept hdrGet [0x10#8] State.reset with st := .txFrame, txIdx := 3, env := [taking] } = some .escDle) ∧
    (next? (exec .escDle { accept hdrGet [0x10#8] State.reset with st := .txFrame, txIdx := 3 })).map (·.txIdx) = some 4 := by
  decide

theorem test_esc_2b : (next? (step (received .rx [0x01#8, 0x00#8, 0x2B#8] offering [0x18#8]))).map
      (fun t => (t.st, t.rxLen, t.rxb.read 3)) = some (.rx, 4, some 0x18#8) := by decide

/-- F-12: the pair `2B 18` of the command byte. -/
theorem test_esc_2b_sent :
    (next? (exec .esc2B { accept hdrGet [0x2B#8] State.reset with st := .txFrame, txIdx := 4 })).map (·.txIdx) = some 5 := by
  decide

/-- Program P1, cycle 21, and the false footer of program P5. -/
theorem test_footer : (next? (step (received .rx (replyP1.take 9) offering [0x03#8]))).map (fun t => (t.st, t.rxLen)) =
    some (.txDleAck, 10) := by decide

theorem test_footer_false :
    (next? (exec .footer (received .rx [0x01#8, 0x00#8, 0x63#8, 0xFA#8, 0x10#8, 0x10#8] offering [0x03#8]))).map
      (fun t => (t.st, t.rxLen)) = some (.txDleAck, 7) := by decide

/-! ### Cycles without a code -/

/-- Program P2, cycle 5: the fourth tick in W_ACK. -/
theorem test_timeout : (next? (step { inState .wAck ticking [] with timer := 3 })).map (fun t => (t.st, t.lastErr, t.errStep)) =
    some (.retryWait, .handshakeTimeout, .step1) := by decide

/-- R161, program P11: the buffer is full. -/
theorem test_overflow : (next? (step (received .rx (List.replicate 64 0x01#8) offering [0x10#8]))).map
      (fun t => (t.st, t.rxOvf, t.rxLen, t.errInfo, t.chRx)) = some (.retryWait, true, 64, 0x0040#16, []) := by decide

/-- R165, R64, program P2 cycle 8. -/
theorem test_flush : (next? (step { inState .flush Inputs.quiet [0x55#8] with chTx := [0x02#8] })).map
      (fun t => (t.st, t.attempt, t.chRx, t.chTx)) = some (.txStx, 2, [], []) := by decide

/-- Program P9, cycle 2: a stale byte. -/
theorem test_stale_byte : (next? (step (inState .wAck offering [0x03#8]))).map (fun t => (t.st, t.lastErr, t.errInfo)) =
    some (.retryWait, .handshakeRejected, 0x0003#16) := by decide

/-- R167. -/
theorem test_ack_result : (next? (step (inState .done { Inputs.quiet with respAck := true } []))).map (·.st) = some .idle := by
  decide

/-- R220, U11: in the rst cycle the byte offered is still sent. -/
theorem test_reset_cycle : (next? (step (inState .txStx { taking with rst := true } []))).map (fun t => (t.st, t.txfLen, t.chTx)) =
    some (.idle, 0, [0x02#8]) := by decide

/-- R220, R38, R64 (log entry 18): a reset cycle in FLUSH still empties the channel; one in RETRY_WAIT does not. -/
theorem test_reset_in_flush :
    (next? (step (inState .flush { Inputs.quiet with rst := true } [0x55#8]))).map (fun t => (t.st, t.chRx)) = some (.idle, []) ∧
    (next? (step (inState .retryWait { Inputs.quiet with rst := true } [0x55#8]))).map (fun t => (t.st, t.chRx)) =
      some (.idle, [0x55#8]) := by decide

/-- R44: a caller's read beyond the length. -/
theorem test_undefined_byte : (match readRxRaw (received .rx [7#8] Inputs.quiet []) 1 with
    | .fault r => some r | _ => none) = some (.undefinedByte .rxb 1) := by decide

/-! ### Witnesses: for each statement with hypotheses, states and operands that meet them

A theorem `witness_<Name>` shows the hypotheses of `Obligations.<Name>` met together, one conjunct per clause where the
statement has several, at a boundary of the range where there is one. -/

theorem witness_ChecksumOfConcatenationAndOrder : List.Perm [0x01#8, 0x02#8] [0x02#8, 0x01#8] := by decide

theorem witness_WholeFrameUnescapeKeepsHeaderAndFooter :
    0x04#8 ∈ [0x00#8, 0x80#8, 0x01#8, 0x02#8, 0x03#8, 0x04#8] := by decide

theorem witness_RequestFrameLengthFitsBuffer : hdrSet.length = 2 ∧ (List.replicate 11 0x10#8).length ≤ 3 + Params.std.maxWdata := by
  decide

theorem witness_ParseTestsLengthFirst : (unescape [0x01#8, 0x01#8, 0x10#8, 0x03#8]).length < 5 ∧ (unescape []).length < 5 := by
  decide

/-- Q-1 and Q-3 for the two clauses of a GET header, then Q-4 and Q-6 to Q-10; `mid` has two bytes or more. -/
theorem witness_ParseResultByHeader :
    (unescape [0x01#8, 0x00#8, 0x01#8, 0x10#8, 0x03#8] = 0x01#8 :: 0x00#8 :: 0x01#8 :: [0x10#8, 0x03#8] ∧
      checksum ([0x01#8, 0x00#8] ++ []) = 0x01#8) ∧
    (unescape [0x01#8, 0x00#8, 0x02#8, 0x10#8, 0x03#8] = 0x01#8 :: 0x00#8 :: 0x02#8 :: [0x10#8, 0x03#8] ∧
      checksum ([0x01#8, 0x00#8] ++ []) ≠ 0x02#8) ∧
    unescape [0x01#8, 0x80#8, 0x81#8, 0x10#8, 0x03#8] = 0x01#8 :: 0x80#8 :: 0x81#8 :: [0x10#8, 0x03#8] ∧
    unescape [0x01#8, 0x01#8, 0x00#8, 0x10#8, 0x03#8] = 0x01#8 :: 0x01#8 :: 0x00#8 :: [0x10#8, 0x03#8] ∧
    unescape [0x01#8, 0x02#8, 0x00#8, 0x10#8, 0x03#8] = 0x01#8 :: 0x02#8 :: 0x00#8 :: [0x10#8, 0x03#8] ∧
    unescape [0x01#8, 0x03#8, 0x04#8, 0x10#8, 0x03#8] = 0x01#8 :: 0x03#8 :: 0x04#8 :: [0x10#8, 0x03#8] ∧
    unescape [0x01#8, 0x04#8, 0x05#8, 0x10#8, 0x03#8] = 0x01#8 :: 0x04#8 :: 0x05#8 :: [0x10#8, 0x03#8] ∧
    unescape [0x01#8, 0x05#8, 0x06#8, 0x10#8, 0x03#8] = 0x01#8 :: 0x05#8 :: 0x06#8 :: [0x10#8, 0x03#8] ∧
    headerUnknown 0x01#8 0x05#8 = true ∧ 2 ≤ [0x10#8, 0x03#8].length := by decide

/-- Q-21: the payload of program P5 has the false footer, at the seventh byte. -/
theorem witness_FalseFooterExactlyOnDle03 :
    rxDone .literal ((build hdrGet [0xFA#8, 0x10#8, 0x03#8, 0x55#8]).take 7) = true ∧
    (checksum (hdrGet ++ [0#8] ++ [0xFA#8, 0x10#8, 0x03#8, 0x55#8]) :: [0xFA#8, 0x10#8, 0x03#8, 0x55#8])[2]? = some 0x10#8 := by
  decide

theorem witness_UnpairedDleHasNoFalseFooter : 7 < (build hdrGet [0xFA#8, 0x10#8, 0x03#8, 0x55#8]).length := by decide

theorem witness_DecodeUndoesEncode : Instr.wf Params.std (.frmSetReq [0x0A#8, 0x05#8, 0x10#8, 0x2B#8]) = true ∧
    Instr.wf Params.std (.rplGetOk 0x10#8 [0x0F#8] 0x10#8 0x03#8) = true ∧
    Instr.wf Params.std (.rplSetAck [0x81#8, 0x10#8, 0x03#8]) = true ∧
    Instr.wf Params.std (.rplErrTiming [0x00#8, 0x10#8, 0x03#8]) = true ∧
    Instr.wf Params.std (.rplErrChecksum [0x00#8, 0x10#8, 0x03#8]) = true ∧
    Instr.wf Params.std (.rplErrUnknownCmd [0x04#8, 0x10#8, 0x03#8]) = true ∧
    Instr.wf Params.std (.rplErrUnknownReg [0x05#8, 0x10#8, 0x03#8]) = true := by decide

theorem witness_EncodeUndoesFrameDecode :
    decode (.wire .frame [0x01#8, 0x80#8, 0x00#8, 0x7F#8, 0x10#8, 0x03#8]) = .ok (.frmSetReq [0x7F#8]) := by decide

/-- A reset cycle that sends a byte, one that receives and discards a byte, and one in FLUSH with bytes in the channel. -/
theorem witness_ResetCycleClearsRegisters :
    ((inState .txFrame { taking with rst := true } []).inp.rst = true ∧
      (txData (inState .txFrame { taking with rst := true } [])).isSome) ∧
    ((inState .wAck { offering with rst := true } [0x10#8, 0x55#8]).inp.rst = true ∧
      (txData (inState .wAck { offering with rst := true } [0x10#8, 0x55#8])).isSome ∧
      (got (inState .wAck { offering with rst := true } [0x10#8, 0x55#8])).isSome) ∧
    ((inState .flush { Inputs.quiet with rst := true } [0x55#8]).inp.rst = true ∧
      (txData (inState .flush { Inputs.quiet with rst := true } [0x55#8])).isSome ∧
      (inState .flush { Inputs.quiet with rst := true } [0x55#8]).st = .flush) := by decide

/-- An accepted request has the invariant, whatever the inputs and the channel hold. -/
theorem invariant_accepted (i : Inputs) (rest : List Inputs) (rx : List Byte) :
    Invariant { inState .txStx i rx with env := i :: rest } where
  parOk := rfl
  txfCovers := rfl
  rxbCovers := rfl
  respCovers := rfl
  txfFits := by show 6 ≤ 28; decide
  rxFits := Nat.zero_le _
  respFits := Nat.zero_le _
  idxInFrame := by intro h; cases h
  idxFits := Nat.zero_le _
  frameBuilt := fun _ => ⟨[0xFB#8], by decide, .inl ⟨by decide, rfl⟩⟩
  timerBelow := by intro l h; cases h
  timerFits := Nat.zero_le _
  attemptFits := by show 1 ≤ 3; decide
  attemptMade := fun _ => le_refl 1
  retryRemains := by rintro (h | h) <;> cases h
  errStepFits := rfl
  resultIsLast := by intro h; cases h
  dataOnlyOk := fun _ => rfl
  ovfFull := by intro h; cases h

theorem witness_StepKeepsInvariant : Invariant (inState .txStx lively []) ∧ ∃ t, step (inState .txStx lively []) = .next t :=
  ⟨invariant_accepted lively [] [], _, rfl⟩

theorem witness_InvariantStepsComplete : Invariant (inState .txStx lively []) ∧ busDriven (inState .txStx lively []) = true :=
  ⟨invariant_accepted lively [] [], rfl⟩

theorem witness_StepRunsDecodedInstruction :
    (inState .wAck offering [0x10#8]).inp.rst = false ∧
    presented (inState .wAck offering [0x10#8]) = some (.wire .ackIn [0x10#8]) ∧
    decode (.wire .ackIn [0x10#8]) = .ok .ctlDleAckIn := by decide

theorem witness_ClosingACycleMovesOnlyTheChannel :
    (txData (inState .txStx taking [])).isSome ∧ (inState .txStx taking []).st ≠ .flush := by decide

theorem witness_ReadIsAcceptedInIdle : State.reset.st = .idle ∧ (3#2 : BitVec 2) ≠ 0#2 ∧ (1#2 : BitVec 2) ≠ 0#2 := by decide

/-- MAX_WDATA value bytes on a bus that has them, and on one that lacks one. -/
theorem witness_WriteIsAcceptedInIdle : State.reset.st = .idle ∧ (1#2 : BitVec 2) ≠ 0#2 ∧ 8 ≤ State.reset.par.maxWdata ∧
    8 ≤ (List.replicate 8 0#8).length ∧ (List.replicate 7 0#8).length < 8 := by decide

theorem witness_IllFormedRequestEndsAsBadRequest : State.reset.st = .idle ∧ State.reset.par.maxWdata < 9 := by decide

theorem witness_StxIsSentInTxStx :
    (inState .txStx ticking []).st = .txStx ∧ (inState .txStx ticking []).inp.rst = false ∧
    (inState .txStx ticking []).inp.txReady = false := by decide

/-- The frame itself at its last byte and before it, each pair of a frame at its second byte, the footer at both bytes. -/
theorem witness_FrameCodesSendOneByte :
    (beingSent (.frmGetReq [0xFB#8]) { inState .txFrame taking [] with txIdx := 5 } ∧
      beingSent (.frmGetReq [0xFB#8]) (inState .txFrame taking [])) ∧
    beingSent (.frmSetReq [0x7F#8]) { accept hdrSet [0x7F#8] State.reset with st := .txFrame } ∧
    beingSent .escDle { accept hdrGet [0x10#8] State.reset with st := .txFrame, txIdx := 4 } ∧
    beingSent .esc2B { accept hdrGet [0x2B#8] State.reset with st := .txFrame, txIdx := 4 } ∧
    (beingSent .footer { inState .txFrame taking [] with txIdx := 4 } ∧
      beingSent .footer { inState .txFrame taking [] with txIdx := 5 } ∧ (inState .txFrame taking []).txfLen = 6) :=
  ⟨⟨rfl, rfl⟩, rfl, rfl, rfl, rfl, rfl, rfl⟩

theorem witness_DleRequestStartsReceiving :
    (inState .txDleReq ticking []).st = .txDleReq ∧ (inState .txDleReq ticking []).inp.rst = false ∧
    (inState .txDleReq ticking []).inp.txReady = false := by decide

theorem witness_FinalDleFinishesWithParse :
    rxBytes (received .txDleAck replyP1 taking []) = some replyP1 ∧
    (parse replyP1).data.length ≤ (received .txDleAck replyP1 taking []).par.maxRx := by decide

theorem witness_SendingWaitsWithoutLimit :
    (inState .txDleAck ticking []).st.sends = true ∧ (inState .txDleAck ticking []).inp.rst = false ∧
    (inState .txDleAck ticking []).inp.txReady = false := by decide

/-- The checksum of an empty GET payload is 01 (R132); 02 is a mismatch (Q-2, Q-3). -/
theorem witness_GetReplyIsChecked : (inState .txDleAck taking []).st = .txDleAck ∧
    checksum ([0x01#8, 0x00#8] ++ []) = 0x01#8 ∧ checksum ([0x01#8, 0x00#8] ++ []) ≠ 0x02#8 := by decide

theorem witness_SetReplyIsReturnedVerbatim : (inState .txDleAck taking []).st = .txDleAck ∧
    (List.replicate 64 0#8).length ≤ (inState .txDleAck taking []).par.maxRx := by decide

theorem witness_ErrorRepliesEndWithTheirCode : (inState .txDleAck taking []).st = .txDleAck := by decide

theorem witness_FinalDleAgreesWithReply :
    (received .txDleAck [0x01#8, 0x03#8, 0x04#8, 0x10#8, 0x03#8] taking []).st = .txDleAck ∧
    rxBytes (received .txDleAck [0x01#8, 0x03#8, 0x04#8, 0x10#8, 0x03#8] taking []) =
      some [0x01#8, 0x03#8, 0x04#8, 0x10#8, 0x03#8] ∧
    decode (.wire .reply [0x01#8, 0x03#8, 0x04#8, 0x10#8, 0x03#8]) = .ok (.rplErrUnknownCmd [0x04#8, 0x10#8, 0x03#8]) := by
  decide

theorem witness_DeviceAcknowledgesAdvance :
    (inState .wAck offering [0x10#8]).st = .wAck ∧ (inState .wEcho offering [0x02#8]).st = .wEcho := by decide

/-- No tick; a tick with the timer at T_ECHO - 2; the last tick, the timer at T_ECHO - 1; W_ECHO2. -/
theorem witness_SplitDleStxKeepsOneWindow :
    ((inState .wEcho offering [0x10#8]).st = .wEcho ∧ (inState .wEcho offering [0x10#8]).inp.tick = false) ∧
    ({ inState .wEcho ticking [] with timer := 2 }.inp.tick = true ∧ 2 + 1 < Params.std.tEcho) ∧
    Params.std.tEcho ≤ 3 + 1 ∧ (inState .wEcho2 offering [0x02#8]).st = .wEcho2 := by decide

/-- The last retry remains at attempt 2, and none at attempt 3 (N_RETRY = 2). -/
theorem witness_NakRejectsTheAttempt :
    ((inState .wAck offering [0x15#8]).st = .wAck ∧ (inState .wEcho offering [0x15#8]).st = .wEcho ∧
      (inState .wEcho2 offering [0x15#8]).st = .wEcho2) ∧
    { inState .wAck offering [0x15#8] with attempt := 2 }.attempt ≤ Params.std.nRetry ∧
    Params.std.nRetry < { inState .wAck offering [0x15#8] with attempt := 3 }.attempt := by decide

theorem witness_AbortRecordsAndRetries :
    { inState .rx ticking [] with attempt := 2 }.attempt ≤ (inState .rx ticking []).par.nRetry ∧
    (inState .rx ticking []).par.nRetry < { inState .rx ticking [] with attempt := 3 }.attempt := by decide

/-- In W_ECHO2 the second byte may be a second `10`. -/
theorem witness_OtherByteRejectsTheAttempt :
    ((inState .wAck offering [0x02#8]).inp.rst = false ∧ got (inState .wAck offering [0x02#8]) = some 0x02#8) ∧
    got (inState .wEcho offering [0x15#8]) = some 0x15#8 ∧ got (inState .wEcho2 offering [0x10#8]) = some 0x10#8 := by decide

/-- In each wait state: no byte, without a tick, with a tick below the limit, and with the last tick; in RX with the largest
count that 16 bits hold, and with one more. -/
theorem witness_TicksTimeAWaitOut :
    ((inState .wAck Inputs.quiet []).inp.rst = false ∧ got (inState .wAck Inputs.quiet []) = none ∧
      (inState .wAck Inputs.quiet []).inp.tick = false) ∧
    (got (inState .wEcho ticking [0x02#8]) = none ∧ got (inState .wEcho2 ticking []) = none ∧
      (inState .wEcho ticking []).inp.tick = true ∧ (inState .wEcho ticking []).timer + 1 < Params.std.tEcho) ∧
    (got (inState .rx ticking []) = none ∧ (inState .rx ticking []).inp.tick = true ∧
      Params.std.tRx ≤ { inState .rx ticking [] with timer := 63 }.timer + 1) ∧
    (got { inState .rx ticking [] with rxLen := 65535 } = none ∧ 65535 < 65536) ∧
    got { inState .rx ticking [] with rxLen := 65536 } = none ∧ ¬ 65536 < 65536 := by decide

/-- A byte in W_ACK; the `10` of W_ECHO with a tick; an incomplete reply with a tick; completion; overflow. -/
theorem witness_ByteIsHandledBeforeTick :
    (got (inState .wAck offering [0x03#8]) = some 0x03#8) ∧
    (got (inState .wEcho { offering with tick := true } [0x10#8]) = some 0x10#8 ∧
      (inState .wEcho { offering with tick := true } [0x10#8]).inp.tick = true) ∧
    (got (received .rx [0x01#8] { offering with tick := true } [0x00#8]) = some 0x00#8 ∧
      rxFull (received .rx [0x01#8] { offering with tick := true } [0x00#8]) = false ∧
      rxBytes (received .rx [0x01#8] { offering with tick := true } [0x00#8]) = some [0x01#8] ∧
      rxDone Params.std.footerMatch ([0x01#8] ++ [0x00#8]) = false) ∧
    (rxDone Params.std.footerMatch ([0x01#8, 0x10#8] ++ [0x03#8]) = true ∧
      rxFull (received .rx (List.replicate 64 0x01#8) offering [0x10#8]) = true) := by decide

/-- The timer far from, just below, and at the last tick of T_RX; the buffer at its last free byte. -/
theorem witness_EscapePairsAreStoredRaw :
    ((received .rx [0x10#8] offering [0x10#8]).st = .rx ∧ rxBytes (received .rx [0x10#8] offering [0x10#8]) = some [0x10#8] ∧
      (received .rx [0x10#8] offering [0x10#8]).inp.tick = false) ∧
    (received .rx (List.replicate 63 0x10#8) offering [0x10#8]).rxLen < Params.std.maxRx ∧
    ((received .rx [0x2B#8] ticking [0x18#8]).inp.tick = true ∧ 62 + 1 < Params.std.tRx ∧ Params.std.tRx ≤ 63 + 1) := by decide

/-- A long receive buffer: `n` bytes in one of 100000. -/
def longReply (n : Nat) (b : Byte) (i : Inputs) (rx : List Byte) : State :=
  let s := received .rx (List.replicate n b) i rx
  { s with par := { s.par with maxRx := 100000 } }

/-- Both sides of the 16-bit count, one byte more than 65534 and than 65535; for ByteIsHandledBeforeTick, EscapePairsAreStoredRaw,
FooterEndsTheReply and RxStoresEveryByte. -/
theorem witness_long_replies (n : Nat) (h : n < 100000) :
    (longReply n 0x10#8 { offering with tick := true } [0x03#8]).st = .rx ∧
    rxBytes (longReply n 0x10#8 { offering with tick := true } [0x03#8]) = some (List.replicate n 0x10#8) ∧
    (longReply n 0x10#8 { offering with tick := true } [0x03#8]).rxLen = n ∧
    (longReply n 0x10#8 { offering with tick := true } [0x03#8]).rxLen <
      (longReply n 0x10#8 { offering with tick := true } [0x03#8]).par.maxRx ∧
    got (longReply n 0x10#8 { offering with tick := true } [0x03#8]) = some 0x03#8 ∧
    (longReply n 0x10#8 { offering with tick := true } [0x03#8]).inp.tick = true := by
  refine ⟨rfl, Memory.readRange_ofBytes _, List.length_replicate, ?_, rfl, rfl⟩
  show (List.replicate n 0x10#8).length < 100000
  rwa [List.length_replicate]

theorem witness_long_reply_below : 65534 < 100000 ∧ 65534 + 1 < 65536 := by decide

theorem witness_long_reply_above : 65535 < 100000 ∧ ¬ 65535 + 1 < 65536 := by decide

/-- D-2 completes under both settings, D-9 under LITERAL only, D-4 under neither. -/
theorem witness_FooterEndsTheReply :
    (rxBytes (received .rx [0x01#8, 0x10#8] offering [0x03#8]) = some [0x01#8, 0x10#8] ∧
      ([0x01#8, 0x10#8].reverse.takeWhile (· == 0x10#8)).length % 2 = 1) ∧
    (rxBytes (received .rx [0x01#8, 0x10#8, 0x10#8] offering [0x03#8]) = some [0x01#8, 0x10#8, 0x10#8] ∧
      (received .rx [0x01#8, 0x10#8, 0x10#8] offering [0x03#8]).par.footerMatch = .literal) ∧
    (rxBytes (received .rx [0x00#8, 0x10#8] offering [0x03#8]) = some [0x00#8, 0x10#8] ∧
      [0x00#8, 0x10#8, 0x03#8][0]? ≠ some 0x01#8 ∧ (received .rx [0x00#8, 0x10#8] offering [0x03#8]).inp.tick = false) ∧
    ((received .rx [0x00#8, 0x10#8] { offering with tick := true } [0x03#8]).inp.tick = true ∧
      { received .rx [0x00#8, 0x10#8] { offering with tick := true } [0x03#8] with timer := 62 }.timer + 1 < Params.std.tRx ∧
      Params.std.tRx ≤ { received .rx [0x00#8, 0x10#8] { offering with tick := true } [0x03#8] with timer := 63 }.timer + 1) := by
  decide

theorem witness_OverflowEndsTheAttempt :
    (received .rx (List.replicate 64 0x01#8) offering [0x10#8]).st = .rx ∧
    Params.std.maxRx ≤ (received .rx (List.replicate 64 0x01#8) offering [0x10#8]).rxLen ∧
    got (received .rx (List.replicate 64 0x01#8) offering [0x10#8]) = some 0x10#8 ∧
    (Params.std.maxRx ≤ { inState .rx offering [0x10#8] with rxLen := 65535 }.rxLen ∧
      Params.std.maxRx ≤ { inState .rx offering [0x10#8] with rxLen := 65536 }.rxLen) := by decide

/-- Completion, and the first byte of a reply; the buffer empty at the start. -/
theorem witness_RxStoresEveryByte :
    (got (received .rx [0x01#8, 0x10#8] offering [0x03#8]) = some 0x03#8 ∧
      rxDone Params.std.footerMatch ([0x01#8, 0x10#8] ++ [0x03#8]) = true) ∧
    (got (inState .rx offering [0x01#8]) = some 0x01#8 ∧ rxBytes (inState .rx offering [0x01#8]) = some [] ∧
      (inState .rx offering [0x01#8]).rxLen < Params.std.maxRx ∧ rxDone Params.std.footerMatch ([] ++ [0x01#8]) = false ∧
      (inState .rx offering [0x01#8]).inp.tick = false) ∧
    ((inState .rx { offering with tick := true } [0x01#8]).inp.tick = true ∧
      { inState .rx { offering with tick := true } [0x01#8] with timer := 62 }.timer + 1 < Params.std.tRx ∧
      Params.std.tRx ≤ { inState .rx { offering with tick := true } [0x01#8] with timer := 63 }.timer + 1) := by decide

/-- T_DELAY = 2: the first tick counts, the second ends the delay. -/
theorem witness_RetryWaitThenFlushRestarts :
    ((inState .retryWait Inputs.quiet []).inp.rst = false ∧ (inState .retryWait Inputs.quiet []).inp.tick = false) ∧
    ((inState .retryWait ticking []).inp.tick = true ∧ (inState .retryWait ticking []).timer + 1 < Params.std.tDelay) ∧
    Params.std.tDelay ≤ { inState .retryWait ticking [] with timer := 1 }.timer + 1 ∧
    (inState .flush Inputs.quiet []).st = .flush := by decide

/-- A cycle of the retry, and a reset cycle. -/
theorem witness_FlushEmptiesTheChannel : (inState .flush lively [0x55#8]).st = .flush ∧
    (inState .flush { lively with rst := true } [0x55#8]).st = .flush ∧
    (inState .flush { lively with rst := true } [0x55#8]).inp.rst = true := by decide

theorem witness_ResultIsHeldUntilAcknowledged :
    ((inState .done ticking []).inp.rst = false ∧ (inState .done ticking []).st = .done ∧
      (inState .done ticking []).inp.respAck = false) ∧
    (inState .done { ticking with respAck := true } []).inp.respAck = true ∧
    ((inState .idle ticking []).st = .idle ∧ (inState .idle ticking []).inp.reqValid = false) := by decide

theorem witness_ParserResultsAreNotRetried :
    (received .txDleAck [0x01#8, 0x03#8, 0x04#8, 0x10#8, 0x03#8] taking []).inp.rst = false ∧
    (received .txDleAck [0x01#8, 0x03#8, 0x04#8, 0x10#8, 0x03#8] taking []).inp.txReady = true ∧
    ∃ t, step (received .txDleAck [0x01#8, 0x03#8, 0x04#8, 0x10#8, 0x03#8] taking []) = .next t := ⟨rfl, rfl, _, rfl⟩

theorem witness_EveryAttemptSendsTheSameFrame :
    (inState .flush lively []).st ≠ .idle ∧ (inState .flush lively []).inp.rst = false ∧
    ∃ t, step (inState .flush lively []) = .next t := ⟨by decide, rfl, _, rfl⟩

theorem witness_ParametersAreStatic : ∃ t, step (inState .txStx lively []) = .next t := ⟨_, rfl⟩

theorem witness_RequestInputsMatterOnlyAtAcceptance :
    (inState .txStx { lively with reqValid := true } []).st ≠ .idle ∧ State.reset.inp.reqValid = false := by decide

theorem witness_UntakenBytesStayInTheChannel :
    (inState .txFrame { lively with rxOffer := true } [0x55#8]).st.waits = false ∧
    (inState .txFrame { lively with rxOffer := true } [0x55#8]).st ≠ .flush ∧
    ∃ t, step (inState .txFrame { lively with rxOffer := true } [0x55#8]) = .next t := ⟨by decide, by decide, _, rfl⟩

theorem witness_CodesWaitOutsideTheirStates :
    handledIn (.read 1#2 0xFB#8 0#8 0#8) (inState .txStx lively []).st = false ∧
    handledIn .ctlNak (inState .rx offering [0x15#8]).st = false := by decide

/-- The clauses at the boundary: index 0 with nothing received; index 0 of a state with a byte. -/
theorem witness_UndefinedBytesHaveNoValue :
    (inState .txStx lively []).rxLen ≤ 0 ∧ (inState .txStx lively []).respLen ≤ 0 := by decide

/-- One raw byte received, one byte of data. -/
def withBytes : State :=
  { State.reset with rxb := Memory.ofBytes [0x01#8], rxLen := 1, respData := Memory.ofBytes [0x55#8], respLen := 1 }

theorem invariant_withBytes : Invariant withBytes where
  parOk := rfl
  txfCovers := rfl
  rxbCovers := rfl
  respCovers := rfl
  txfFits := Nat.zero_le _
  rxFits := by decide
  respFits := by decide
  idxInFrame := by intro h; cases h
  idxFits := Nat.zero_le _
  frameBuilt := by intro h; cases h
  timerBelow := by intro l h; cases h
  timerFits := Nat.zero_le _
  attemptFits := Nat.zero_le _
  attemptMade := by intro h; cases h
  retryRemains := by rintro (h | h) <;> cases h
  errStepFits := rfl
  resultIsLast := by intro h; cases h
  dataOnlyOk := fun h => absurd rfl h
  ovfFull := by intro h; cases h

/-- The last two clauses, at the last index below each length. -/
theorem witness_UndefinedBytesHaveNoValue_defined : Invariant withBytes ∧ 0 < withBytes.rxLen ∧ 0 < withBytes.respLen :=
  ⟨invariant_withBytes, by decide, by decide⟩

theorem witness_StepKeepsBuffersCanonical :
    (received .rx replyP1 offering [0x55#8]).txf.wf = true ∧ (received .rx replyP1 offering [0x55#8]).rxb.wf = true ∧
    (received .rx replyP1 offering [0x55#8]).respData.wf = true ∧
    ∃ t, step (received .rx replyP1 offering [0x55#8]) = .next t := ⟨rfl, rfl, rfl, _, rfl⟩

theorem witness_CountersFitTheirWidths : Invariant (inState .txStx lively []) := invariant_accepted lively [] []

theorem witness_LivelyCycleLowersRequestCost :
    Invariant (inState .txStx lively []) ∧ (inState .txStx lively []).st.inFlight = true ∧
    (inState .txStx lively []).inp.lively = true ∧ ∃ t, step (inState .txStx lively []) = .next t :=
  ⟨invariant_accepted lively [] [], rfl, rfl, _, rfl⟩

/-- 252 lively cycles: three attempts of a READ of FB under P-std. -/
theorem witness_EveryRequestReachesDone :
    Invariant { inState .txStx lively [] with env := lively :: List.replicate 251 lively } ∧
    requestCost { inState .txStx lively [] with env := lively :: List.replicate 251 lively } = 252 ∧
    ∀ k, k < 252 → ((lively :: List.replicate 251 lively).getD k Inputs.quiet).lively = true := by
  refine ⟨invariant_accepted lively _ [], by decide, fun k hk => ?_⟩
  rw [← List.replicate_succ, List.getD_eq_getElem?_getD, List.getElem?_replicate, if_pos hk]
  rfl

end Sys2Proof.Tests
end

section
/-! O57: the registers of R18, R27 and R30 hold what the invariant bounds. The one fact that is not in the invariant is that
`clog2` computes a width that is wide enough: its search does not run out of fuel before it finds one. -/

namespace Sys2Proof.Laws
open Sys2Proof Sys2Proof.Machine

/-- The search from `k` ends at a wide enough exponent when its fuel reaches one. -/
theorem le_two_pow_clog2From (n fuel k : Nat) (hreach : n ≤ 2 ^ (k + fuel)) : n ≤ 2 ^ clog2From n fuel k := by
  induction fuel generalizing k with
  | zero => exact hreach
  | succ fuel ih =>
    rw [clog2From]
    split
    · assumption
    · exact ih (k + 1) (by rwa [Nat.add_right_comm])

theorem le_two_pow_clog2 (n : Nat) : n ≤ 2 ^ clog2 n :=
  le_two_pow_clog2From n n 0 (by rw [Nat.zero_add]; exact Nat.lt_two_pow_self.le)

/-- A register of `clog2 (m + 1)` bits holds every value up to `m`. -/
theorem lt_two_pow_clog2_succ {v m : Nat} (hv : v ≤ m) : v < 2 ^ clog2 (m + 1) :=
  (Nat.lt_succ_of_le hv).trans_le (le_two_pow_clog2 (m + 1))

/-- Settles O57: each bound is a clause of the invariant, and the width of the register is `clog2` of the bound's successor. -/
theorem countersFitTheirWidths : Obligations.CountersFitTheirWidths := by
  intro s hs
  exact ⟨lt_two_pow_clog2_succ hs.txfFits, lt_two_pow_clog2_succ hs.idxFits, lt_two_pow_clog2_succ hs.timerFits,
    lt_two_pow_clog2_succ hs.attemptFits, lt_two_pow_clog2_succ hs.rxFits, lt_two_pow_clog2_succ hs.respFits⟩

end Sys2Proof.Laws
end

section
/-! O15, O58: the outputs by state (R38), and the values right after reset (R43). -/

namespace Sys2Proof.Laws
open Sys2Proof Sys2Proof.Machine

/-- R38: `req_ready` is 1 in IDLE alone. -/
theorem reqReady_iff (s : State) : reqReady s = true ↔ s.st = .idle := beq_iff_eq

/-- R38: `resp_valid` is 1 in DONE alone. -/
theorem respValid_iff (s : State) : respValid s = true ↔ s.st = .done := beq_iff_eq

/-- R38: `ch_flush` is 1 in FLUSH alone. -/
theorem chFlush_iff (s : State) : chFlush s = true ↔ s.st = .flush := beq_iff_eq

/-- R38: a byte is offered to the channel in the four sending states. -/
theorem txValid_iff (s : State) :
    txValid s = true ↔ s.st = .txStx ∨ s.st = .txFrame ∨ s.st = .txDleReq ∨ s.st = .txDleAck := by
  unfold txValid
  cases s.st <;> simp

/-- R38: a byte is taken from the channel in the four wait states. -/
theorem rxReady_iff (s : State) :
    rxReady s = true ↔ s.st = .wAck ∨ s.st = .wEcho ∨ s.st = .wEcho2 ∨ s.st = .rx := by
  unfold rxReady
  cases s.st <;> simp

/-- R38: `tx_data` in TX_STX. -/
theorem txData_of_txStx {s : State} (hst : s.st = .txStx) : txData s = some stx := by
  simp only [txData, hst]

/-- R38, R44: `tx_data` in TX_FRAME. -/
theorem txData_of_txFrame {s : State} (hst : s.st = .txFrame) :
    txData s = definedByte s.txf s.txfLen s.txIdx := by
  simp only [txData, hst]

/-- R38: `tx_data` in the two states that send a DLE. -/
theorem txData_of_sendsDle {s : State} (hst : s.st = .txDleReq ∨ s.st = .txDleAck) : txData s = some dle := by
  rcases hst with hst | hst <;> simp only [txData, hst]

/-- R38: where no byte is offered, `tx_data` is 00. -/
theorem txData_of_not_txValid {s : State} (h : txValid s = false) : txData s = some 0#8 := by
  cases hst : s.st <;> simp_all [txValid, txData]

/-- Settles O58: the handshake outputs and `tx_data` by the lemmas above, the codes by cases, and a bus cut at its length
register reads as its buffer below it. `outputs` reads neither the inputs nor what the channel holds. -/
theorem outputsAreFunctionsOfRegisters : Obligations.OutputsAreFunctionsOfRegisters := by
  intro s
  refine ⟨reqReady_iff s, respValid_iff s, txValid_iff s, rxReady_iff s, chFlush_iff s, txData_of_txStx, txData_of_txFrame,
    txData_of_sendsDle, txData_of_not_txValid, ?respCode, ?lastErr, ?errStep, rfl, rfl, rfl, rfl, rfl, ?buses, fun _ _ => rfl⟩
  case respCode => show s.respCode.code = _; cases s.respCode <;> rfl
  case lastErr => show s.lastErr.code = _; cases s.lastErr <;> rfl
  case errStep => show s.errStep.code = _; cases s.errStep <;> rfl
  case buses => exact fun i => ⟨Memory.read_filter_lt _ _ i, Memory.read_filter_lt _ _ i⟩

/-- Settles O15: each register of `State.reset` is the literal of R43. -/
theorem resetValuesAndOutputs : Obligations.ResetValuesAndOutputs :=
  ⟨rfl, rfl, rfl, rfl, rfl, rfl, rfl, rfl, rfl, rfl, rfl, rfl, fun _ => ⟨rfl, rfl, rfl⟩, rfl, rfl, rfl, rfl, rfl⟩

end Sys2Proof.Laws
end

section
/-! O17: the invariant at reset. -/

namespace Sys2Proof.Laws
open Sys2Proof Sys2Proof.Machine

/-- Settles O17: in IDLE with empty buffers every bound is of 0, and the clauses about other states are void. -/
theorem invariantHoldsAtReset : Obligations.InvariantHoldsAtReset where
  parOk := rfl
  txfCovers := rfl
  rxbCovers := rfl
  respCovers := rfl
  txfFits := Nat.zero_le _
  rxFits := Nat.zero_le _
  respFits := Nat.zero_le _
  idxInFrame := nofun
  idxFits := Nat.zero_le _
  frameBuilt := nofun
  timerBelow := nofun
  timerFits := Nat.zero_le _
  attemptFits := Nat.zero_le _
  attemptMade := nofun
  retryRemains := nofun
  errStepFits := rfl
  resultIsLast := nofun
  dataOnlyOk := fun _ => rfl
  ovfFull := nofun

end Sys2Proof.Laws
end

section
/-! O55: what a read of a buffer byte gives (R44). -/

namespace Sys2Proof.Laws
open Sys2Proof Sys2Proof.Machine

/-- R44: a byte at or beyond the length register has no value. -/
theorem definedByte_of_ge (m : Memory) {len i : Nat} (h : len ≤ i) : definedByte m len i = none :=
  if_neg (by omega)

/-- R44: in a buffer that gives a value to exactly the indices below its length, every byte below it has one. -/
theorem definedByte_of_covers {m : Memory} {len i : Nat} (hm : m.covers len = true) (hi : i < len) :
    ∃ b, definedByte m len i = some b := by
  obtain ⟨bytes, rfl, rfl⟩ := (Memory.covers_iff m len).1 hm
  exact ⟨bytes[i], by simp [definedByte, hi]⟩

/-- R44: a read at or beyond the length register faults, inside the bus or outside it. -/
theorem busRead_faults (buf : Buffer) (m : Memory) (size : Nat) {len i : Nat} (h : len ≤ i) :
    ∃ f, busRead buf m size len i = .fault f := by
  unfold busRead
  split
  · exact ⟨_, rfl⟩
  · rw [definedByte_of_ge m h]
    exact ⟨_, rfl⟩

/-- R44, R50: below the length register of a buffer that fits its bus, a read gives a byte. -/
theorem busRead_gives (buf : Buffer) {m : Memory} {size len i : Nat} (hm : m.covers len = true) (hfit : len ≤ size)
    (hi : i < len) : ∃ b, busRead buf m size len i = .next b := by
  obtain ⟨b, hb⟩ := definedByte_of_covers hm hi
  refine ⟨b, ?_⟩
  rw [busRead, if_neg (by omega), hb]

/-- Settles O55: the two buses are one `busRead`; the invariant gives that the buffer has its bytes and fits. -/
theorem undefinedBytesHaveNoValue : Obligations.UndefinedBytesHaveNoValue := by
  intro s i
  exact ⟨busRead_faults .rxb s.rxb s.par.maxRx, busRead_faults .respData s.respData s.par.maxRx,
    fun hs => busRead_gives .rxb hs.rxbCovers hs.rxFits,
    fun hs => busRead_gives .respData hs.respCovers hs.respFits⟩

end Sys2Proof.Laws
end

section
/-! O54: a code outside its states (log entry 1). -/

namespace Sys2Proof.Laws
open Sys2Proof Sys2Proof.Machine

/-- Settles O54: each meaning is a match on `st`, and `handledIn` names exactly the states of its other branches, so that
`hst` leaves the branch that waits. -/
theorem codesWaitOutsideTheirStates : Obligations.CodesWaitOutsideTheirStates := by
  intro i s h
  cases i
  case read | write =>
    have hst : s.st ≠ .idle := by simpa [handledIn] using h
    simp [exec, execRead, execWrite]
  case frmGetReq | frmSetReq =>
    have hst : s.st ≠ .txFrame := by simpa [handledIn] using h
    simp [exec, execFrmGetReq, execFrmSetReq]
  case rplGetOk | rplSetAck | rplErrTiming | rplErrChecksum | rplErrUnknownCmd | rplErrUnknownReg | rplUnknownHeader |
      ctlDleAckOut =>
    have hst : s.st ≠ .txDleAck := by simpa [handledIn] using h
    simp [exec, execRplGetOk, execRplSetAck, execRplErrTiming, execRplErrChecksum, execRplErrUnknownCmd,
      execRplErrUnknownReg, execRplUnknownHeader, execCtlDleAckOut]
  case ctlStxOut =>
    have hst : s.st ≠ .txStx := by simpa [handledIn] using h
    simp [exec, execCtlStxOut]
  case ctlDleAckIn =>
    have hst : s.st ≠ .wAck := by simpa [handledIn] using h
    simp [exec, execCtlDleAckIn]
  case ctlNak =>
    have hst : (s.st ≠ .wAck ∧ s.st ≠ .wEcho) ∧ s.st ≠ .wEcho2 := by simpa [handledIn] using h
    simp [exec, execCtlNak, hst]
  case ctlEchoDleStx =>
    have hst : s.st ≠ .wEcho ∧ s.st ≠ .wEcho2 := by simpa [handledIn] using h
    simp [exec, execCtlEchoDleStx, hst]
  case ctlEchoStx =>
    have hst : s.st ≠ .wEcho := by simpa [handledIn] using h
    simp [exec, execCtlEchoStx]
  case ctlDleReq =>
    have hst : s.st ≠ .txDleReq := by simpa [handledIn] using h
    simp [exec, execCtlDleReq]
  case escDle | esc2B | footer =>
    have hst : s.st ≠ .txFrame ∧ s.st ≠ .rx := by simpa [handledIn] using h
    simp [exec, execEscDle, execEsc2B, execFooter, hst]

end Sys2Proof.Laws
end

section
/-! SUPPORT. Facts about the codec that the decoder and the parser share: lengths, the last byte of a reply and of a pair, and
PARSE by header with the reply cut as the decoder cuts it. -/

namespace Sys2Proof.Laws
open Sys2Proof Sys2Proof.Machine

/-- R105: a pair shortens, any other byte stays. -/
theorem unescape_length_le (r : List Byte) : (unescape r).length ≤ r.length := by
  induction r using unescape.induct with
  | case1 => simp
  | case2 => simp
  | case3 a b r hpair ih => rw [unescape, if_pos hpair]; simp only [List.length_cons]; omega
  | case4 a b r hdle hpair ih => rw [unescape, if_neg hdle, if_pos hpair]; simp only [List.length_cons]; omega
  | case5 a b r hdle h2b ih => rw [unescape, if_neg hdle, if_neg h2b]; simpa using ih

/-- R166: a reply is complete at a `03` only. -/
theorem eq_foot3_of_rxDone {fm : FooterMatch} {old : List Byte} {b : Byte} (h : rxDone fm (old ++ [b]) = true) :
    b = foot3 := by
  simp only [rxDone, Bool.and_eq_true, beq_iff_eq] at h
  obtain ⟨⟨-, hlast⟩, -⟩ := h
  simpa using hlast

/-- The pair that ends a sequence has the last byte as its second byte. -/
theorem lastPair_snd {raw : List Byte} {p : Byte × Byte} (h : lastPair raw = some p) : raw.getLast? = some p.2 := by
  induction raw using lastPair.induct with
  | case1 => cases h
  | case2 => cases h
  | case3 a b hp => rw [lastPair, if_pos hp] at h; cases h; rfl
  | case4 a b hp => rw [lastPair, if_neg hp] at h; cases h
  | case5 a b c r hp ih => rw [lastPair, if_pos hp] at h; simpa using ih h
  | case6 a b c r hp ih => rw [lastPair, if_neg hp] at h; simpa using ih h

/-- R16: a 16-bit header value determines its two bytes. -/
theorem pack_inj {a b c d : Byte} : pack a b = pack c d ↔ a = c ∧ b = d := by
  constructor
  · intro h
    have hhi := congrArg (BitVec.extractLsb' 8 8) h
    have hlo := congrArg (BitVec.extractLsb' 0 8) h
    exact ⟨by simpa only [pack, BitVec.extractLsb'_append_eq_left] using hhi,
      by simpa only [pack, BitVec.extractLsb'_append_eq_right] using hlo⟩
  · rintro ⟨rfl, rfl⟩; rfl

theorem slice_length_le (s : List Byte) (i j : Nat) : (slice s i j).length ≤ s.length := by
  simp only [slice, List.length_drop, List.length_take]
  omega

/-- The data of a result is part of the unescaped reply (R132, R133). -/
theorem parse_data_length_le (raw : List Byte) : (parse raw).data.length ≤ raw.length := by
  have hslice : ∀ i j, (slice (unescape raw) i j).length ≤ raw.length := fun i j =>
    (slice_length_le _ i j).trans (unescape_length_le raw)
  simp only [parse]
  split_ifs <;> simp [hslice]

/-- R130, R132 to R135: what PARSE answers for a reply of header `h0 h1` and at least the minimum length, on the unescaped
bytes `rest` after the header as the decoder cuts them. -/
theorem parse_of_header {raw rest : List Byte} {h0 h1 : Byte} (hu : unescape raw = h0 :: h1 :: rest)
    (hlen : 3 ≤ rest.length) :
    parse raw =
      if h0 = 0x01#8 ∧ h1 = 0x00#8 then
        if checksum (hdrGet ++ (rest.drop 1).take (rest.length - 3)) = rest.getD 0 0#8 then
          ⟨.ok, (rest.drop 1).take (rest.length - 3), 0#16⟩
        else
          ⟨.checksumMismatch, [], pack (checksum (hdrGet ++ (rest.drop 1).take (rest.length - 3))) (rest.getD 0 0#8)⟩
      else if h0 = 0x01#8 ∧ h1 = 0x80#8 then ⟨.ok, rest, 0#16⟩
      else if h0 = 0x01#8 ∧ h1 = 0x01#8 then ⟨.devTimingError, [], 0x0101#16⟩
      else if h0 = 0x01#8 ∧ h1 = 0x02#8 then ⟨.devChecksumError, [], 0x0102#16⟩
      else if h0 = 0x01#8 ∧ h1 = 0x03#8 then ⟨.devUnknownCommand, [], 0x0103#16⟩
      else if h0 = 0x01#8 ∧ h1 = 0x04#8 then ⟨.devUnknownRegister, [], 0x0104#16⟩
      else ⟨.unknownHeader, [], pack h0 h1⟩ := by
  have hlong : ¬ (h0 :: h1 :: rest).length < 5 := by simp only [List.length_cons]; omega
  have hpayload : slice (h0 :: h1 :: rest) 3 rest.length = (rest.drop 1).take (rest.length - 3) := by
    obtain ⟨n, hn⟩ : ∃ n, rest.length = n + 3 := ⟨rest.length - 3, by omega⟩
    simp [slice, hn, List.drop_take]
  have hheader : slice (h0 :: h1 :: rest) 0 2 = [h0, h1] := rfl
  have hget : pack h0 h1 = 0x0100#16 ↔ h0 = 0x01#8 ∧ h1 = 0x00#8 := pack_inj (c := 0x01#8) (d := 0x00#8)
  have hset : pack h0 h1 = 0x0180#16 ↔ h0 = 0x01#8 ∧ h1 = 0x80#8 := pack_inj (c := 0x01#8) (d := 0x80#8)
  have htiming : pack h0 h1 = 0x0101#16 ↔ h0 = 0x01#8 ∧ h1 = 0x01#8 := pack_inj (c := 0x01#8) (d := 0x01#8)
  have hchecksum : pack h0 h1 = 0x0102#16 ↔ h0 = 0x01#8 ∧ h1 = 0x02#8 := pack_inj (c := 0x01#8) (d := 0x02#8)
  have hcommand : pack h0 h1 = 0x0103#16 ↔ h0 = 0x01#8 ∧ h1 = 0x03#8 := pack_inj (c := 0x01#8) (d := 0x03#8)
  have hregister : pack h0 h1 = 0x0104#16 ↔ h0 = 0x01#8 ∧ h1 = 0x04#8 := pack_inj (c := 0x01#8) (d := 0x04#8)
  have hn : (h0 :: h1 :: rest).length - 2 = rest.length := rfl
  simp only [← hget, ← hset, ← htiming, ← hchecksum, ← hcommand, ← hregister, parse, hu, if_neg hlong, hn, hpayload,
    replyChecksum, hheader, List.getD_cons_zero, List.getD_cons_succ]
  have hall : slice (h0 :: h1 :: rest) 2 (h0 :: h1 :: rest).length = rest := by simp [slice]
  exact ite_congr rfl (fun hdr => by obtain ⟨rfl, rfl⟩ := hget.1 hdr; rfl) fun _ =>
    ite_congr rfl (fun _ => by rw [hall]) fun _ =>
    ite_congr rfl (fun hdr => by rw [hdr]) fun _ =>
    ite_congr rfl (fun hdr => by rw [hdr]) fun _ =>
    ite_congr rfl (fun hdr => by rw [hdr]) fun _ =>
    ite_congr rfl (fun hdr => by rw [hdr]) fun _ => rfl

/-- R82, R132 to R135: in TX_DLE_ACK the meaning of the reply that the decoder reads is to finish with what PARSE answers. -/
theorem exec_decodeReplyBody {s : State} {raw rest : List Byte} {h0 h1 : Byte} (hst : s.st = .txDleAck)
    (hu : unescape raw = h0 :: h1 :: rest) (hlen : 3 ≤ rest.length) :
    exec (decodeReplyBody h0 h1 rest) s = finish (parse raw) s := by
  rw [parse_of_header hu hlen, decodeReplyBody]
  split_ifs with hget hsum
  · simp only [exec, execRplGetOk, hst, if_pos hsum]
  · simp only [exec, execRplGetOk, hst, if_neg hsum]
  all_goals
    simp only [exec, hst, execRplSetAck, execRplErrTiming, execRplErrChecksum, execRplErrUnknownCmd, execRplErrUnknownReg,
      execRplUnknownHeader]

end Sys2Proof.Laws
end

section
/-! SUPPORT. The meaning of the code that a cycle handles is the rule of R151 for that cycle: one lemma per place that reads
more than one byte, then all states. What follows argues about the rules alone. -/

namespace Sys2Proof.Laws
open Sys2Proof Sys2Proof.Machine

/-- R152, R153: in IDLE both kinds of request. -/
theorem exec_decodeRequest {s : State} (hst : s.st = .idle) (hreq : s.inp.reqValid = true) :
    exec (decodeRequest s.inp.req) s = ruleIdle s := by
  rw [ruleIdle, if_pos hreq]
  by_cases hkind : s.inp.req.kind = 0#1
  · have hread : requestWellFormed s.par s.inp.req = readWellFormed s.inp.req.cmdLen := by
      simp [requestWellFormed, readWellFormed, hkind]
    simp only [decodeRequest, if_pos hkind, exec, execRead, hst, hread, requestPayload, requestHeader]
  · have hwrite : requestWellFormed s.par s.inp.req = writeWellFormed s.par s.inp.req.cmdLen s.inp.req.wlen := by
      simp only [requestWellFormed, writeWellFormed, readWellFormed, beq_false_of_ne hkind, Bool.false_or]
    simp only [decodeRequest, if_neg hkind, exec, execWrite, hst, hwrite, requestPayload, requestHeader]
    cases valueBytes s.inp.req.wlen s.inp.req.wdata <;> rfl

/-- R72, R74: the three pairs that are codes. -/
theorem decode_pairBytes {p : Byte × Byte} {i : Instr} (hd : decode (.wire .pair (pairBytes p)) = .ok i) :
    (p = (dle, dle) ∧ i = .escDle) ∨ (p = (esc2b, esc18) ∧ i = .esc2B) ∨ (p = (dle, foot3) ∧ i = .footer) := by
  have hbytes : ∀ x y : Byte, pairBytes p = [x, y] → p = (x, y) := fun x y h => by
    simpa [pairBytes, Prod.ext_iff] using h
  simp only [decode] at hd
  split_ifs at hd with hdle h2b hfoot <;> cases hd
  · exact .inl ⟨hbytes _ _ hdle, rfl⟩
  · exact .inr (.inl ⟨hbytes _ _ h2b, rfl⟩)
  · exact .inr (.inr ⟨hbytes _ _ hfoot, rfl⟩)

/-- R75, R76: a frame read as a request frame is the one its payload builds. -/
theorem decodeFrame_ok {f : List Byte} {i : Instr} (hd : decodeFrame f = .ok i) :
    (∃ p, i = .frmGetReq p ∧ f = build hdrGet p) ∨ (∃ p, i = .frmSetReq p ∧ f = build hdrSet p) := by
  simp only [decodeFrame] at hd
  split_ifs at hd with hget hset <;> cases hd
  · exact .inl ⟨_, rfl, hget.2.2⟩
  · exact .inr ⟨_, rfl, hset.2⟩

/-- R156: in TX_FRAME the frame, the pair or the footer at `tx_idx` sends one byte. -/
theorem exec_presentedFrame {s : State} {f : List Byte} {i : Instr} (hst : s.st = .txFrame) (hf : txBytes s = some f)
    (hd : decode (presentedFrame f s.txIdx) = .ok i) : exec i s = .next (frameByteSent s) := by
  have hpair : pairBeingSent s = framePair f s.txIdx := by rw [pairBeingSent, hf]; rfl
  rw [presentedFrame] at hd
  split at hd
  · next p hp =>
    rw [hp] at hpair
    obtain ⟨rfl, rfl⟩ | ⟨rfl, rfl⟩ | ⟨rfl, rfl⟩ := decode_pairBytes hd
    · simp only [exec, execEscDle, hst, if_pos hpair]
    · simp only [exec, execEsc2B, hst, if_pos hpair]
    · simp only [exec, execFooter, hst, if_pos hpair]
  · obtain ⟨p, rfl, rfl⟩ | ⟨p, rfl, rfl⟩ := decodeFrame_ok hd
    · simp only [exec, execFrmGetReq, hst]
      exact if_pos hf
    · simp only [exec, execFrmSetReq, hst]
      exact if_pos hf

/-- R160: in RX the footer or the pair that a byte completes stores that byte. -/
theorem exec_presentedRx {s : State} {old : List Byte} {b : Byte} {i : Instr} (hst : s.st = .rx)
    (hd : decode (presentedRx s.par.footerMatch old b) = .ok i) : exec i s = receiveByte b s := by
  rw [presentedRx] at hd
  split at hd
  · next hdone =>
    rw [eq_foot3_of_rxDone hdone]
    cases hd
    simp only [exec, execFooter, hst]
  · split at hd
    · next p hp =>
      have hlast : b = p.2 := by simpa using lastPair_snd hp
      obtain ⟨rfl, rfl⟩ | ⟨rfl, rfl⟩ | ⟨rfl, rfl⟩ := decode_pairBytes hd
      · simp only [exec, execEscDle, hst, hlast]
      · simp only [exec, execEsc2B, hst, hlast]
      · simp only [exec, execFooter, hst, hlast]
    · cases hd

/-- R163: in TX_DLE_ACK the reply, or the final DLE of one too short for a header, finishes with what PARSE answers. -/
theorem exec_presentedReply {s : State} {raw : List Byte} {i : Instr} (hst : s.st = .txDleAck)
    (hraw : rxBytes s = some raw) (hd : decode (presentedReply raw) = .ok i) : exec i s = finishReply s := by
  have hfin : finishReply s = finish (parse raw) s := by rw [finishReply, hraw]
  rw [presentedReply] at hd
  split_ifs at hd with hlong
  · rw [hfin]
    simp only [decode, decodeReply] at hd
    split at hd
    · next h0 h1 rest hu =>
      split_ifs at hd with hlen
      cases hd
      exact exec_decodeReplyBody hst hu hlen
    · cases hd
  · cases hd
    simp only [exec, execCtlDleAckOut, hst]

/-- Log entry 1: the meaning of the code that a cycle handles is R151's rule for that cycle. -/
theorem exec_eq_rule {s : State} {i : Instr} (hi : fetch s = some i) : exec i s = rule s := by
  obtain ⟨c, hc, hd⟩ := fetch_eq_some.1 hi
  rw [presented] at hc
  rw [rule]
  cases hst : s.st <;> simp only [hst] at hc ⊢
  case idle =>
    split_ifs at hc with hreq
    cases hc; cases hd
    exact exec_decodeRequest hst hreq
  case txStx =>
    split_ifs at hc with hsent
    cases hc; cases hd
    simp only [exec, execCtlStxOut, hst, ruleTxStx, if_pos hsent]
  case wAck =>
    obtain ⟨b, hb, rfl⟩ := Option.map_eq_some_iff.1 hc
    simp only [decode, List.cons.injEq, and_true] at hd
    split_ifs at hd with hdle hnak <;> cases hd
    · simp only [exec, execCtlDleAckIn, hst, ruleWAck, hb, if_pos hdle]
    · subst hnak
      simp only [exec, execCtlNak, hst, ruleWAck, hb, if_neg hdle]
  case txFrame =>
    split_ifs at hc with hsent
    obtain ⟨f, hf, rfl⟩ := Option.map_eq_some_iff.1 hc
    rw [exec_presentedFrame hst hf hd, ruleTxFrame, if_pos hsent]
  case wEcho =>
    obtain ⟨b, hb, rfl⟩ := Option.map_eq_some_iff.1 hc
    simp only [decode, List.cons.injEq, and_true, reduceCtorEq, and_false, or_false] at hd
    split_ifs at hd with hstx hdle hnak <;> cases hd
    · simp only [exec, execCtlEchoStx, hst, ruleWEcho, hb, if_pos hstx]
    · simp only [exec, execCtlEchoDleStx, hst, ruleWEcho, hb, if_neg hstx, if_pos hdle]
    · subst hnak
      simp only [exec, execCtlNak, hst, ruleWEcho, hb, if_neg hstx, if_neg hdle]
  case wEcho2 =>
    obtain ⟨b, hb, rfl⟩ := Option.map_eq_some_iff.1 hc
    simp only [decode, List.cons.injEq, and_true] at hd
    split_ifs at hd with hstx hnak <;> cases hd
    · simp only [exec, execCtlEchoDleStx, hst, ruleWEcho2, hb, if_pos hstx]
    · subst hnak
      simp only [exec, execCtlNak, hst, ruleWEcho2, hb, if_neg hstx]
  case txDleReq =>
    split_ifs at hc with hsent
    cases hc; cases hd
    simp only [exec, execCtlDleReq, hst, ruleTxDleReq, if_pos hsent]
  case rx =>
    obtain ⟨b, hb, hc⟩ := Option.bind_eq_some_iff.1 hc
    split_ifs at hc with hfull
    obtain ⟨old, -, rfl⟩ := Option.map_eq_some_iff.1 hc
    rw [exec_presentedRx hst hd, ruleRx, hb]
  case txDleAck =>
    split_ifs at hc with hsent
    obtain ⟨raw, hraw, rfl⟩ := Option.map_eq_some_iff.1 hc
    rw [exec_presentedReply hst hraw hd, ruleTxDleAck, if_pos hsent]
  case retryWait | flush | done => cases hc

/-- R151: a step without reset is the rule of the state, then the environment's side of the cycle. -/
theorem step_eq_andThen_rule {s : State} (hrst : s.inp.rst = false) : step s = andThen (rule s) (closeCycle s) := by
  rw [step, if_neg (by simp [hrst])]
  cases hi : fetch s with
  | none => rfl
  | some i => simp only [exec_eq_rule hi]

/-- R195: a reset cycle runs no rule. -/
theorem step_of_rst {s : State} (hrst : s.inp.rst = true) : step s = closeCycle s (resetBlock s) := if_pos hrst

end Sys2Proof.Laws
end

section
/-! O50: the frame and the number of the attempt (R27, R30, R172). -/

namespace Sys2Proof.Laws
open Sys2Proof Sys2Proof.Machine

/-- R27, R30: the request frame and the number of the attempt are the same in both states. -/
def sameFrame (s t : State) : Prop := t.txf = s.txf ∧ t.txfLen = s.txfLen ∧ t.attempt = s.attempt

theorem sameFrame_abort (e : Result) (k : ErrStep) (info : BitVec 16) (s : State) : sameFrame s (abort e k info s) :=
  ⟨abort_txf .., abort_txfLen .., abort_attempt ..⟩

theorem sameFrame_countTick (limit : Nat) (k : ErrStep) (info : BitVec 16) (s : State) :
    sameFrame s (countTick limit k info s) :=
  ⟨countTick_txf .., countTick_txfLen .., countTick_attempt ..⟩

theorem sameFrame_frameByteSent (s : State) : sameFrame s (frameByteSent s) := by
  obtain ⟨-, h⟩ | ⟨-, h⟩ := frameByteSent_cases s <;> rw [h] <;> exact ⟨rfl, rfl, rfl⟩

theorem sameFrame_delayTick (s : State) : sameFrame s (delayTick s) := by
  obtain ⟨-, h⟩ | ⟨-, h⟩ := delayTick_cases s <;> rw [h] <;> exact ⟨rfl, rfl, rfl⟩

theorem sameFrame_receiveByte {b : Byte} {s t : State} (h : receiveByte b s = .next t) : sameFrame s t := by
  obtain ⟨-, rfl⟩ | ⟨-, old, -, ⟨-, rfl⟩ | ⟨-, rfl⟩⟩ := receiveByte_next h
  · exact sameFrame_abort _ _ _ { s with rxOvf := true }
  · exact ⟨rfl, rfl, rfl⟩
  · exact sameFrame_countTick _ _ _ (storeByte b s)

theorem sameFrame_finishReply {s t : State} (h : finishReply s = .next t) : sameFrame s t := by
  obtain ⟨raw, -, hfin⟩ := finishReply_next h
  obtain ⟨-, rfl⟩ := finish_next hfin
  exact ⟨rfl, rfl, rfl⟩

/-- R172: of the rules of R151 only acceptance writes the frame, and only acceptance, refusal and FLUSH the attempt. -/
theorem sameFrame_rule {s t : State} (hidle : s.st ≠ .idle) (hflush : s.st ≠ .flush) (h : rule s = .next t) :
    sameFrame s t := by
  rw [rule] at h
  cases hst : s.st <;> simp only [hst] at h
  case idle => exact absurd hst hidle
  case flush => exact absurd hst hflush
  case txStx | txDleReq | done =>
    simp only [ruleTxStx, ruleTxDleReq, ruleDone] at h
    split at h <;> cases h <;> exact ⟨rfl, rfl, rfl⟩
  case txFrame =>
    rw [ruleTxFrame] at h
    split at h <;> cases h
    · exact sameFrame_frameByteSent s
    · exact ⟨rfl, rfl, rfl⟩
  case retryWait =>
    rw [ruleRetryWait] at h
    split at h <;> cases h
    · exact sameFrame_delayTick s
    · exact ⟨rfl, rfl, rfl⟩
  case txDleAck =>
    rw [ruleTxDleAck] at h
    split at h
    · exact sameFrame_finishReply h
    · cases h; exact ⟨rfl, rfl, rfl⟩
  case rx =>
    rw [ruleRx] at h
    split at h
    · exact sameFrame_receiveByte h
    · cases h; exact sameFrame_countTick ..
  case wAck =>
    rw [ruleWAck] at h
    split at h
    · split at h <;> cases h
      · exact ⟨rfl, rfl, rfl⟩
      · exact sameFrame_abort ..
    · cases h; exact sameFrame_countTick ..
  case wEcho =>
    rw [ruleWEcho] at h
    split at h
    · split_ifs at h <;> cases h
      · exact ⟨rfl, rfl, rfl⟩
      · exact sameFrame_countTick _ _ _ { s with st := .wEcho2 }
      · exact sameFrame_abort ..
    · cases h; exact sameFrame_countTick ..
  case wEcho2 =>
    rw [ruleWEcho2] at h
    split at h
    · split at h <;> cases h
      · exact ⟨rfl, rfl, rfl⟩
      · exact sameFrame_abort ..
    · cases h; exact sameFrame_countTick ..

/-- R165. -/
theorem rule_of_flush {s : State} (hst : s.st = .flush) : rule s = .next (retryRestart s) := by
  rw [rule]; simp only [hst, ruleFlush]

/-- Settles O50: the rule of the state keeps the frame, or it is FLUSH's; closing the cycle writes no register. -/
theorem everyAttemptSendsTheSameFrame : Obligations.EveryAttemptSendsTheSameFrame := by
  intro s u hidle hrst hstep
  rw [step_eq_andThen_rule hrst, andThen_eq_next] at hstep
  obtain ⟨t, hrule, hclose⟩ := hstep
  obtain ⟨out, -, rfl⟩ := closeCycle_next hclose
  by_cases hflush : s.st = .flush
  · rw [rule_of_flush hflush] at hrule
    cases hrule
    rw [if_pos hflush]
    exact ⟨rfl, rfl, rfl⟩
  · rw [if_neg hflush]
    have hframe : sameFrame s t := sameFrame_rule hidle hflush hrule
    exact hframe

end Sys2Proof.Laws
end

section
/-! O19: under the invariant every cycle completes, but for an undriven value bus. -/

namespace Sys2Proof.Laws
open Sys2Proof Sys2Proof.Machine

/-- R44, R109: under the invariant the byte offered to the channel has a value. -/
theorem txData_of_invariant {s : State} (hs : Invariant s) : ∃ b, txData s = some b := by
  cases hst : s.st
  case txFrame =>
    rw [txData_of_txFrame hst]
    exact definedByte_of_covers hs.txfCovers (hs.idxInFrame hst)
  all_goals simp [txData, hst]

/-- Under the invariant the environment's side of a cycle completes. -/
theorem closeCycle_completes {s : State} (hs : Invariant s) (t : State) : ∃ u, closeCycle s t = .next u := by
  obtain ⟨b, hb⟩ := txData_of_invariant hs
  rw [closeCycle, hb]
  split <;> exact ⟨_, rfl⟩

/-- R44: under the invariant every raw byte received has a value. -/
theorem rxBytes_of_invariant {s : State} (hs : Invariant s) : ∃ raw, raw.length = s.rxLen ∧ rxBytes s = some raw := by
  obtain ⟨raw, hlen, -, hraw⟩ := Memory.readRange_of_covers hs.rxbCovers
  exact ⟨raw, hlen, hraw⟩

/-- R160: a byte in RX is stored or dropped, never stuck on a byte without a value. -/
theorem receiveByte_completes {s : State} (hs : Invariant s) (b : Byte) : ∃ t, receiveByte b s = .next t := by
  obtain ⟨raw, -, hraw⟩ := rxBytes_of_invariant hs
  simp only [receiveByte, hraw]
  split_ifs <;> exact ⟨_, rfl⟩

/-- R109: no reply has more data than the raw bytes received, so it fits `resp_data`. -/
theorem finishReply_completes {s : State} (hs : Invariant s) : ∃ t, finishReply s = .next t := by
  obtain ⟨raw, hlen, hraw⟩ := rxBytes_of_invariant hs
  have hfits : (parse raw).data.length ≤ s.par.maxRx :=
    (parse_data_length_le raw).trans (hlen.trans_le hs.rxFits)
  rw [finishReply, hraw]
  exact ⟨_, if_pos hfits⟩

/-- Log entry 13: a payload is missing only where the value bus is shorter than the length it goes with. -/
theorem requestPayload_eq_none {r : Request} (h : requestPayload r = none) : r.wdata.length < r.wlen := by
  unfold requestPayload valueBytes at h
  split_ifs at h with hkind hbus
  · cases h
  · omega

/-- In IDLE the rule stops for a value bus that is not driven, and for nothing else. -/
theorem ruleIdle_completes (s : State) :
    (∃ t, ruleIdle s = .next t) ∨ (busDriven s = false ∧ ruleIdle s = .refused .shortBus) := by
  unfold ruleIdle
  split_ifs with hreq hwf
  · cases hp : requestPayload s.inp.req with
    | some p => exact .inl ⟨_, rfl⟩
    | none =>
      have := requestPayload_eq_none hp
      exact .inr ⟨by simp [busDriven, hreq, this], rfl⟩
  · exact .inl ⟨_, rfl⟩
  · exact .inl ⟨_, rfl⟩

/-- Under the invariant no rule of R151 faults, and only IDLE's can stop. -/
theorem rule_completes {s : State} (hs : Invariant s) :
    (∃ t, rule s = .next t) ∨ (busDriven s = false ∧ rule s = .refused .shortBus) := by
  rw [rule]
  cases hst : s.st
  case idle => exact ruleIdle_completes s
  all_goals left
  case flush => exact ⟨_, rfl⟩
  case txStx | txFrame | txDleReq | retryWait | done =>
    simp only [ruleTxStx, ruleTxFrame, ruleTxDleReq, ruleRetryWait, ruleDone]
    split <;> exact ⟨_, rfl⟩
  case wAck | wEcho | wEcho2 =>
    simp only [ruleWAck, ruleWEcho, ruleWEcho2]
    cases got s
    · exact ⟨_, rfl⟩
    · dsimp only
      split_ifs <;> exact ⟨_, rfl⟩
  case rx =>
    simp only [ruleRx]
    cases got s with
    | none => exact ⟨_, rfl⟩
    | some b => exact receiveByte_completes hs b
  case txDleAck =>
    simp only [ruleTxDleAck]
    split
    · exact finishReply_completes hs
    · exact ⟨_, rfl⟩

/-- Settles O19: under the invariant the rule of the state completes or refuses an undriven bus, and closing the cycle
completes. -/
theorem invariantStepsComplete : Obligations.InvariantStepsComplete := by
  intro s hs
  cases hrst : s.inp.rst
  case true =>
    obtain ⟨u, hu⟩ := closeCycle_completes hs (resetBlock s)
    rw [step_of_rst hrst, hu]
    exact ⟨nofun, fun _ => ⟨u, rfl⟩⟩
  case false =>
    rw [step_eq_andThen_rule hrst]
    obtain ⟨t, ht⟩ | ⟨hbus, hshort⟩ := rule_completes hs
    · obtain ⟨u, hu⟩ := closeCycle_completes hs t
      rw [ht, andThen_next, hu]
      exact ⟨nofun, fun _ => ⟨u, rfl⟩⟩
    · rw [hshort]
      exact ⟨nofun, fun hdriven => by simp [hbus] at hdriven⟩

end Sys2Proof.Laws
end

section
/-! O22, O47: the environment's side of a cycle (R57, R58, R61, R64), first as one equation for every state whose byte offered
has a value. -/

namespace Sys2Proof.Laws
open Sys2Proof Sys2Proof.Machine

/-- R151: what the block sends in this cycle, one byte or nothing. -/
def sentBytes (s : State) : List Byte := if sent s then (txData s).toList else []

/-- R58, R61: with a value for the byte offered, closing a cycle rewrites the channel and the inputs, and nothing else. -/
theorem closeCycle_eq {s : State} (hdata : (txData s).isSome) (t : State) :
    closeCycle s t = .next { t with
      chRx := chRxNext s, chTx := (chTxAccepted s (sentBytes s)).drop s.inp.drain,
      line := s.line ++ (chTxAccepted s (sentBytes s)).take s.inp.drain, env := s.env.drop 1 } := by
  obtain ⟨b, hb⟩ := Option.isSome_iff_exists.1 hdata
  rw [closeCycle, sentBytes, hb]
  split <;> rfl

/-- R58: outside FLUSH the channel gives up the byte received, and no other. -/
theorem chRxNext_of_not_flush {s : State} (hst : s.st ≠ .flush) :
    chRxNext s = (if (got s).isSome then s.chRx.tail else s.chRx) ++ s.inp.arrive := by
  rw [chRxNext, if_neg (mt (chFlush_iff s).1 hst), List.drop_one]

/-- R61: outside FLUSH the channel keeps what it accepted. -/
theorem chTxAccepted_of_not_flush {s : State} (hst : s.st ≠ .flush) (out : List Byte) :
    chTxAccepted s out = s.chTx ++ out := if_neg (mt (chFlush_iff s).1 hst)

/-- Settles O22: `closeCycle_eq` outside FLUSH; however the line and the channel share the bytes, their order stays. -/
theorem closingACycleMovesOnlyTheChannel : Obligations.ClosingACycleMovesOnlyTheChannel := by
  intro s t hdata hst
  refine ⟨_, closeCycle_eq hdata t, by simp [sameRegisters], List.drop_one, chRxNext_of_not_flush hst, ?_⟩
  calc (s.line ++ (chTxAccepted s (sentBytes s)).take s.inp.drain) ++ (chTxAccepted s (sentBytes s)).drop s.inp.drain
      = s.line ++ chTxAccepted s (sentBytes s) := by rw [List.append_assoc, List.take_append_drop]
    _ = s.line ++ s.chTx ++ sentBytes s := by rw [chTxAccepted_of_not_flush hst, List.append_assoc]

/-- R64: in FLUSH the cycle closes with an empty channel and whatever arrives after the discard. -/
theorem closeCycle_of_flush {s : State} (hst : s.st = .flush) (t : State) :
    closeCycle s t = .next { t with chRx := s.inp.arrive, chTx := [], line := s.line, env := s.env.drop 1 } := by
  have hdata : (txData s).isSome := by simp [txData, hst]
  have hflush : chFlush s = true := (chFlush_iff s).2 hst
  rw [closeCycle_eq hdata]
  simp [chRxNext, chTxAccepted, hflush]

/-- R165, R220: a step from FLUSH runs the retry or the reset, and always closes the cycle. -/
theorem step_of_flush {s : State} (hst : s.st = .flush) : ∃ t, step s = closeCycle s t := by
  cases hrst : s.inp.rst
  · rw [step_eq_andThen_rule hrst, rule_of_flush hst]
    exact ⟨retryRestart s, rfl⟩
  · exact ⟨resetBlock s, step_of_rst hrst⟩

/-- Settles O47: R38's outputs in FLUSH, and the closing of a cycle that began there. -/
theorem flushEmptiesTheChannel : Obligations.FlushEmptiesTheChannel := by
  intro s hst
  obtain ⟨t, ht⟩ := step_of_flush hst
  rw [ht, closeCycle_of_flush hst]
  exact ⟨by simp [txValid, hst], by simp [rxReady, hst], (chFlush_iff s).2 hst, _, rfl, rfl, rfl, rfl⟩

end Sys2Proof.Laws
end

section
/-! SUPPORT. What a rule of R151 can do: one case per operation, each with its state and what sets it off. A claim about
every rule is then a claim about the operations. -/

namespace Sys2Proof.Laws
open Sys2Proof Sys2Proof.Machine

/-- R152 to R167: the states that the rule of `s` can go on with. -/
inductive RuleEffect (s : State) : State → Prop
  /-- Nothing is taken or sent, and nothing is timed. -/
  | wait (hst : s.st.waits = false) : RuleEffect s s
  /-- R153. -/
  | accept (p : List Byte) (hst : s.st = .idle) (hreq : s.inp.reqValid = true)
      (hwf : requestWellFormed s.par s.inp.req = true) (hp : requestPayload s.inp.req = some p) :
      RuleEffect s (accept (requestHeader s.inp.req) p s)
  /-- R152. -/
  | refuse (hst : s.st = .idle) (hreq : s.inp.reqValid = true) (hwf : requestWellFormed s.par s.inp.req = false) :
      RuleEffect s (refuseRequest s)
  /-- R154. -/
  | stxSent (hst : s.st = .txStx) (hsent : sent s = true) : RuleEffect s (stxSent s)
  /-- R155. -/
  | ackReceived (hst : s.st = .wAck) (hgot : got s = some dle) : RuleEffect s (ackReceived s)
  /-- R156. -/
  | frameByteSent (hst : s.st = .txFrame) (hsent : sent s = true) : RuleEffect s (frameByteSent s)
  /-- R157, R158. -/
  | echoComplete (hst : s.st = .wEcho ∨ s.st = .wEcho2) (hgot : got s = some stx) : RuleEffect s (echoComplete s)
  /-- R157. -/
  | echoBegun (hst : s.st = .wEcho) (hgot : got s = some dle) : RuleEffect s (echoBegun s)
  /-- R155, R157, R158. -/
  | rejectByte (k : ErrStep) (b : Byte) (hst : s.st = .wAck ∨ s.st = .wEcho ∨ s.st = .wEcho2) (hgot : got s = some b) :
      RuleEffect s (rejectByte k b s)
  /-- R168: no byte in a wait state. -/
  | countTick (limit : Nat) (k : ErrStep) (info : BitVec 16) (hst : s.st.waits = true) (hgot : got s = none) :
      RuleEffect s (countTick limit k info s)
  /-- R159. -/
  | requestSent (hst : s.st = .txDleReq) (hsent : sent s = true) : RuleEffect s (requestSent s)
  /-- R160 to R162. -/
  | receiveByte (b : Byte) {t : State} (hst : s.st = .rx) (hgot : got s = some b) (ht : receiveByte b s = .next t) :
      RuleEffect s t
  /-- R163. -/
  | finishReply {t : State} (hst : s.st = .txDleAck) (hsent : sent s = true) (ht : finishReply s = .next t) : RuleEffect s t
  /-- R164. -/
  | delayTick (hst : s.st = .retryWait) (htick : s.inp.tick = true) : RuleEffect s (delayTick s)
  /-- R165. -/
  | retryRestart (hst : s.st = .flush) : RuleEffect s (retryRestart s)
  /-- R167. -/
  | releaseResult (hst : s.st = .done) (hack : s.inp.respAck = true) : RuleEffect s (releaseResult s)

/-- R152, R153: IDLE. -/
theorem ruleIdle_next {s t : State} (hst : s.st = .idle) (h : ruleIdle s = .next t) : RuleEffect s t := by
  rw [ruleIdle] at h
  split_ifs at h with hreq hwf
  · cases hp : requestPayload s.inp.req with
    | some p =>
      rw [hp] at h
      cases h
      exact .accept p hst hreq hwf hp
    | none => rw [hp] at h; cases h
  · cases h
    exact .refuse hst hreq (by simpa using hwf)
  · cases h
    exact .wait (by rw [hst]; rfl)

/-- R151: whatever a rule goes on with is the effect of one operation. -/
theorem rule_next {s t : State} (h : rule s = .next t) : RuleEffect s t := by
  rw [rule] at h
  cases hst : s.st <;> simp only [hst] at h
  case idle => exact ruleIdle_next hst h
  case txStx =>
    rw [ruleTxStx] at h
    split at h <;> cases h
    · next hsent => exact .stxSent hst hsent
    · exact .wait (by rw [hst]; rfl)
  case wAck =>
    rw [ruleWAck] at h
    cases hgot : got s <;> simp only [hgot] at h
    case none => cases h; exact .countTick _ _ _ (by rw [hst]; rfl) hgot
    case some b =>
      split_ifs at h with hdle <;> cases h
      · exact .ackReceived hst (hdle ▸ hgot)
      · exact .rejectByte _ b (.inl hst) hgot
  case txFrame =>
    rw [ruleTxFrame] at h
    split at h <;> cases h
    · next hsent => exact .frameByteSent hst hsent
    · exact .wait (by rw [hst]; rfl)
  case wEcho =>
    rw [ruleWEcho] at h
    cases hgot : got s <;> simp only [hgot] at h
    case none => cases h; exact .countTick _ _ _ (by rw [hst]; rfl) hgot
    case some b =>
      split_ifs at h with hstx hdle <;> cases h
      · exact .echoComplete (.inl hst) (hstx ▸ hgot)
      · exact .echoBegun hst (hdle ▸ hgot)
      · exact .rejectByte _ b (.inr (.inl hst)) hgot
  case wEcho2 =>
    rw [ruleWEcho2] at h
    cases hgot : got s <;> simp only [hgot] at h
    case none => cases h; exact .countTick _ _ _ (by rw [hst]; rfl) hgot
    case some b =>
      split_ifs at h with hstx <;> cases h
      · exact .echoComplete (.inr hst) (hstx ▸ hgot)
      · exact .rejectByte _ b (.inr (.inr hst)) hgot
  case txDleReq =>
    rw [ruleTxDleReq] at h
    split at h <;> cases h
    · next hsent => exact .requestSent hst hsent
    · exact .wait (by rw [hst]; rfl)
  case rx =>
    rw [ruleRx] at h
    cases hgot : got s <;> simp only [hgot] at h
    case none => cases h; exact .countTick _ _ _ (by rw [hst]; rfl) hgot
    case some b => exact .receiveByte b hst hgot h
  case txDleAck =>
    rw [ruleTxDleAck] at h
    split at h
    · next hsent => exact .finishReply hst hsent h
    · cases h; exact .wait (by rw [hst]; rfl)
  case retryWait =>
    rw [ruleRetryWait] at h
    split at h <;> cases h
    · next htick => exact .delayTick hst htick
    · exact .wait (by rw [hst]; rfl)
  case flush => cases h; exact .retryRestart hst
  case done =>
    rw [ruleDone] at h
    split at h <;> cases h
    · next hack => exact .releaseResult hst hack
    · exact .wait (by rw [hst]; rfl)

end Sys2Proof.Laws
end

section
/-! O56: the canonical form of the three buffers (R50, as the model represents it). -/

namespace Sys2Proof.Laws
open Sys2Proof Sys2Proof.Machine

/-- The three buffers have strictly rising indices. -/
def buffersCanonical (s : State) : Prop := s.txf.wf = true ∧ s.rxb.wf = true ∧ s.respData.wf = true

theorem buffersCanonical_resetBlock (s : State) : buffersCanonical (resetBlock s) := ⟨rfl, rfl, rfl⟩

theorem buffersCanonical_accept (hdr p : List Byte) (s : State) : buffersCanonical (accept hdr p s) :=
  ⟨Memory.wf_ofBytes _, rfl, rfl⟩

/-- R171: an abort leaves `resp_data` or empties it. -/
theorem buffersCanonical_abort (e : Result) (k : ErrStep) (info : BitVec 16) {s : State} (hs : buffersCanonical s) :
    buffersCanonical (abort e k info s) := by
  obtain ⟨htxf, hrxb, hresp⟩ := hs
  obtain ⟨-, h⟩ | ⟨-, h⟩ := abort_cases e k info s <;> rw [h]
  · exact ⟨htxf, hrxb, hresp⟩
  · exact ⟨htxf, hrxb, rfl⟩

theorem buffersCanonical_countTick (limit : Nat) (k : ErrStep) (info : BitVec 16) {s : State} (hs : buffersCanonical s) :
    buffersCanonical (countTick limit k info s) := by
  obtain ⟨-, h⟩ | ⟨-, -, h⟩ | ⟨-, -, h⟩ := countTick_cases limit k info s <;> rw [h]
  · exact hs
  · exact buffersCanonical_abort _ _ _ hs
  · exact hs

/-- R160: storing a byte is the one write by index. -/
theorem buffersCanonical_storeByte (b : Byte) {s : State} (hs : buffersCanonical s) : buffersCanonical (storeByte b s) := by
  obtain ⟨htxf, hrxb, hresp⟩ := hs
  exact ⟨htxf, Memory.wf_write _ _ _ hrxb, hresp⟩

theorem buffersCanonical_receiveByte {b : Byte} {s t : State} (hs : buffersCanonical s) (h : receiveByte b s = .next t) :
    buffersCanonical t := by
  have hstored : buffersCanonical (storeByte b s) := buffersCanonical_storeByte b hs
  obtain ⟨-, rfl⟩ | ⟨-, old, -, ⟨-, rfl⟩ | ⟨-, rfl⟩⟩ := receiveByte_next h
  · exact buffersCanonical_abort _ _ _ (s := { s with rxOvf := true }) hs
  · exact hstored
  · exact buffersCanonical_countTick _ _ _ hstored

theorem buffersCanonical_finishReply {s t : State} (hs : buffersCanonical s) (h : finishReply s = .next t) :
    buffersCanonical t := by
  obtain ⟨htxf, hrxb, -⟩ := hs
  obtain ⟨raw, -, hfin⟩ := finishReply_next h
  obtain ⟨-, rfl⟩ := finish_next hfin
  exact ⟨htxf, hrxb, Memory.wf_ofBytes _⟩

/-- No rule of R151 leaves the canonical form: it empties a buffer, lays a sequence into it, or writes one byte. -/
theorem buffersCanonical_rule {s t : State} (hs : buffersCanonical s) (h : rule s = .next t) : buffersCanonical t := by
  have ⟨htxf, hrxb, hresp⟩ := hs
  cases rule_next h with
  | wait | stxSent | ackReceived | echoComplete | releaseResult => exact hs
  | accept => exact buffersCanonical_accept _ _ s
  | refuse => exact ⟨htxf, rfl, rfl⟩
  | requestSent | retryRestart => exact ⟨htxf, rfl, hresp⟩
  | frameByteSent => obtain ⟨-, h⟩ | ⟨-, h⟩ := frameByteSent_cases s <;> rw [h] <;> exact hs
  | delayTick => obtain ⟨-, h⟩ | ⟨-, h⟩ := delayTick_cases s <;> rw [h] <;> exact hs
  | echoBegun => exact buffersCanonical_countTick _ _ _ (s := { s with st := .wEcho2 }) hs
  | rejectByte => exact buffersCanonical_abort _ _ _ hs
  | countTick => exact buffersCanonical_countTick _ _ _ hs
  | receiveByte b _ _ ht => exact buffersCanonical_receiveByte hs ht
  | finishReply _ _ ht => exact buffersCanonical_finishReply hs ht

/-- Settles O56: a reset empties the buffers, a rule keeps the form, and closing the cycle writes no buffer. -/
theorem stepKeepsBuffersCanonical : Obligations.StepKeepsBuffersCanonical := by
  intro s u htxf hrxb hresp hstep
  cases hrst : s.inp.rst
  case true =>
    rw [step_of_rst hrst] at hstep
    obtain ⟨out, -, rfl⟩ := closeCycle_next hstep
    exact buffersCanonical_resetBlock s
  case false =>
    rw [step_eq_andThen_rule hrst, andThen_eq_next] at hstep
    obtain ⟨t, hrule, hclose⟩ := hstep
    obtain ⟨out, -, rfl⟩ := closeCycle_next hclose
    have ht : buffersCanonical t := buffersCanonical_rule ⟨htxf, hrxb, hresp⟩ hrule
    exact ht

end Sys2Proof.Laws
end

section
/-! O52: the request port is read in the cycle of acceptance alone (R65). The operations of a cycle that accepts nothing
commute with an exchange of the request fields, and closing the cycle drops the fields. -/

namespace Sys2Proof.Laws
open Sys2Proof Sys2Proof.Machine

@[simp] theorem withReq_st (s : State) (r : Request) : (s.withReq r).st = s.st := rfl
@[simp] theorem withReq_par (s : State) (r : Request) : (s.withReq r).par = s.par := rfl
@[simp] theorem withReq_inp (s : State) (r : Request) : (s.withReq r).inp = { s.inp with req := r } := rfl
@[simp] theorem withReq_got (s : State) (r : Request) : got (s.withReq r) = got s := rfl
@[simp] theorem withReq_rxBytes (s : State) (r : Request) : rxBytes (s.withReq r) = rxBytes s := rfl

theorem ite_withReq (c : Prop) [Decidable c] (s t : State) (r : Request) :
    (if c then s else t).withReq r = if c then s.withReq r else t.withReq r := apply_ite (State.withReq · r) c s t

/-- The same answer, with other request fields where it goes on. -/
def answerWithReq (r : Request) (o : Answer) : Answer := andThen o fun t => .next (t.withReq r)

@[simp] theorem answerWithReq_next (r : Request) (t : State) : answerWithReq r (.next t) = .next (t.withReq r) := rfl

theorem answerWithReq_ite (c : Prop) [Decidable c] (o p : Answer) (r : Request) :
    answerWithReq r (if c then o else p) = if c then answerWithReq r o else answerWithReq r p :=
  apply_ite (answerWithReq r) c o p

/-- The environment's side of a cycle sees the request fields neither where it begins nor where it ends. -/
theorem closeCycle_withReq (s t : State) (r : Request) : closeCycle (s.withReq r) (t.withReq r) = closeCycle s t := rfl

theorem andThen_closeCycle_withReq (s : State) (r : Request) (o : Answer) :
    andThen (answerWithReq r o) (closeCycle (s.withReq r)) = andThen o (closeCycle s) := by
  cases o with
  | next t => exact closeCycle_withReq s t r
  | fault | refused => rfl

/-! ### The operations -/

theorem abort_withReq (e : Result) (k : ErrStep) (info : BitVec 16) (s : State) (r : Request) :
    abort e k info (s.withReq r) = (abort e k info s).withReq r := by
  rw [abort, abort, ite_withReq]
  rfl

theorem countTick_withReq (limit : Nat) (k : ErrStep) (info : BitVec 16) (s : State) (r : Request) :
    countTick limit k info (s.withReq r) = (countTick limit k info s).withReq r := by
  simp only [countTick, count, ite_withReq, abort_withReq]
  rfl

theorem frameByteSent_withReq (s : State) (r : Request) : frameByteSent (s.withReq r) = (frameByteSent s).withReq r := by
  rw [frameByteSent, frameByteSent, ite_withReq]
  rfl

theorem delayTick_withReq (s : State) (r : Request) : delayTick (s.withReq r) = (delayTick s).withReq r := by
  rw [delayTick, delayTick, ite_withReq]
  rfl

theorem rejectByte_withReq (k : ErrStep) (b : Byte) (s : State) (r : Request) :
    rejectByte k b (s.withReq r) = (rejectByte k b s).withReq r := abort_withReq _ _ _ s r

theorem echoBegun_withReq (s : State) (r : Request) : echoBegun (s.withReq r) = (echoBegun s).withReq r :=
  countTick_withReq _ _ _ { s with st := .wEcho2 } r

theorem receiveByte_withReq (b : Byte) (s : State) (r : Request) :
    receiveByte b (s.withReq r) = answerWithReq r (receiveByte b s) := by
  have hovf (info : BitVec 16) : abort .handshakeTimeout .step3 info { s.withReq r with rxOvf := true } =
      (abort .handshakeTimeout .step3 info { s with rxOvf := true }).withReq r :=
    abort_withReq _ _ info { s with rxOvf := true } r
  have hmore (info : BitVec 16) : countTick s.par.tRx .step3 info (storeByte b (s.withReq r)) =
      (countTick s.par.tRx .step3 info (storeByte b s)).withReq r := countTick_withReq _ _ info (storeByte b s) r
  rw [receiveByte, receiveByte, answerWithReq_ite, withReq_rxBytes, hovf]
  cases rxBytes s with
  | none => rfl
  | some old =>
    dsimp only
    rw [answerWithReq_ite, withReq_par, hmore]
    rfl

theorem finishReply_withReq (s : State) (r : Request) : finishReply (s.withReq r) = answerWithReq r (finishReply s) := by
  rw [finishReply, finishReply, withReq_rxBytes]
  cases rxBytes s with
  | none => rfl
  | some raw =>
    dsimp only
    rw [finish, finish, answerWithReq_ite]
    rfl

/-! ### The rules -/

/-- R65: a rule that accepts no request goes on as it would with other request fields. -/
theorem rule_withReq {s : State} (h : s.st ≠ .idle ∨ s.inp.reqValid = false) (r : Request) :
    rule (s.withReq r) = answerWithReq r (rule s) := by
  rw [rule, rule, withReq_st]
  cases hst : s.st
  case idle =>
    have hreq : s.inp.reqValid = false := h.resolve_left (not_not_intro hst)
    simp [ruleIdle, hreq]
  case flush => rfl
  case txStx | txFrame | txDleReq | txDleAck | retryWait | done =>
    simp only [ruleTxStx, ruleTxFrame, ruleTxDleReq, ruleTxDleAck, ruleRetryWait, ruleDone, answerWithReq_ite,
      frameByteSent_withReq, finishReply_withReq, delayTick_withReq]
    rfl
  case wAck | wEcho | wEcho2 =>
    simp only [ruleWAck, ruleWEcho, ruleWEcho2, withReq_got, withReq_par]
    cases got s with
    | none => rw [countTick_withReq]; rfl
    | some b =>
      simp only [echoBegun_withReq, rejectByte_withReq, answerWithReq_ite]
      rfl
  case rx =>
    rw [ruleRx, ruleRx, withReq_got, withReq_par]
    cases got s with
    | none => rw [countTick_withReq]; rfl
    | some b => exact receiveByte_withReq b s r

/-- Settles O52: a reset writes the same registers, a rule that accepts nothing commutes with the exchange, and closing the
cycle drops what is left of it. -/
theorem requestInputsMatterOnlyAtAcceptance : Obligations.RequestInputsMatterOnlyAtAcceptance := by
  intro s r h
  cases hrst : s.inp.rst
  case true =>
    have hrst' : (s.withReq r).inp.rst = true := hrst
    rw [step_of_rst hrst, step_of_rst hrst']
    exact closeCycle_withReq s (resetBlock s) r
  case false =>
    have hrst' : (s.withReq r).inp.rst = false := hrst
    rw [step_eq_andThen_rule hrst, step_eq_andThen_rule hrst', rule_withReq h, andThen_closeCycle_withReq]

end Sys2Proof.Laws
end

section
/-! SUPPORT. The escape read back in front of any further bytes (R105, R107), the length of an escaped sequence (R103), and
what the decoder reads of a built frame and of a raw reply. -/

namespace Sys2Proof.Laws
open Sys2Proof Sys2Proof.Machine

/-! ### The codec -/

/-- R105, R107: what is read of an escaped sequence does not depend on the bytes that follow it, because the escape of a byte
is a matched pair or a byte that opens no pair. -/
theorem unescape_escape_append (s t : List Byte) : unescape (escape s ++ t) = s ++ unescape t := by
  induction s with
  | nil => rfl
  | cons a s ih =>
    rw [escape_cons, List.append_assoc]
    obtain ⟨rfl, hesc⟩ | ⟨rfl, hesc⟩ | ⟨hdle, h2b, hesc⟩ := escapeByte_cases a <;> rw [hesc]
    · simp [ih]
    · simp [ih]
    · simp [unescape_cons_plain hdle h2b, ih]

/-- R107: the round trip. -/
theorem unescape_escape (s : List Byte) : unescape (escape s) = s := by
  simpa using unescape_escape_append s []

/-- R106: the footer stays as it is. -/
@[simp] theorem unescape_footerBytes : unescape footerBytes = footerBytes := rfl

/-- R103: every `10` and every `2B` costs one byte more. -/
theorem escape_length (s : List Byte) :
    (escape s).length = s.length + s.countP (fun b => b == 0x10#8 || b == 0x2B#8) := by
  induction s with
  | nil => rfl
  | cons a s ih =>
    rw [escape_cons, List.length_append, ih, List.length_cons, List.countP_cons]
    obtain ⟨rfl, hesc⟩ | ⟨rfl, hesc⟩ | ⟨hdle, h2b, hesc⟩ := escapeByte_cases a <;> rw [hesc]
    · simp [dle]; omega
    · simp [esc2b]; omega
    · rw [dle] at hdle
      rw [esc2b] at h2b
      simp [hdle, h2b]; omega

/-- R103: no sequence more than doubles. -/
theorem escape_length_le (s : List Byte) : (escape s).length ≤ 2 * s.length := by
  rw [escape_length, Nat.two_mul]
  exact Nat.add_le_add_left List.countP_le_length _

/-! ### Frames -/

/-- R84: header and footer of two bytes each around the escape region. -/
theorem build_length {hdr : List Byte} (hhdr : hdr.length = 2) (p : List Byte) :
    (build hdr p).length = (escape (checksum (hdr ++ [0#8] ++ p) :: p)).length + 4 := by
  simp only [build_eq, List.length_append, List.length_cons, List.length_nil, hhdr]
  omega

/-- R70: the payload of a built frame is read back, whatever the two bytes of the header. -/
theorem framePayload_build {hdr : List Byte} (hhdr : hdr.length = 2) (p : List Byte) : framePayload (build hdr p) = p := by
  rw [framePayload, build_length hhdr, Nat.add_sub_cancel, build_eq, ← hhdr, List.drop_left, List.take_left,
    unescape_escape, List.drop_one, List.tail_cons]

/-- R71: the second byte of a frame tells a SET frame from a GET frame. -/
theorem build_hdrSet_ne_build_hdrGet (p q : List Byte) : build hdrSet p ≠ build hdrGet q := by
  simp [build, hdrSet, hdrGet]

/-- R75. -/
theorem decode_build_hdrGet {cmd : List Byte} (hpos : 1 ≤ cmd.length) (hlen : cmd.length ≤ 3) :
    decode (.wire .frame (build hdrGet cmd)) = .ok (.frmGetReq cmd) := by
  simp [decode, decodeFrame, framePayload_build (hdr := hdrGet) rfl, hpos, hlen]

/-- R76. -/
theorem decode_build_hdrSet {payload : List Byte} (hpos : 1 ≤ payload.length) :
    decode (.wire .frame (build hdrSet payload)) = .ok (.frmSetReq payload) := by
  simp [decode, decodeFrame, framePayload_build (hdr := hdrSet) rfl, hpos, build_hdrSet_ne_build_hdrGet]

/-! ### Replies -/

/-- R108: a header byte other than `10` and `2B` is read as it stands. -/
theorem unescape_cons_of_plainByte {b : Byte} (hb : plainByte b = true) (r : List Byte) :
    unescape (b :: r) = b :: unescape r := by
  simp only [plainByte, Bool.not_eq_true', Bool.or_eq_false_iff, beq_eq_false_iff_ne] at hb
  obtain ⟨hdle, h2b⟩ := hb
  exact unescape_cons_plain hdle h2b r

/-- R70, R131: what a well-formed reply says of the bytes after its header. -/
theorem replyRestOk_shape {p : Params} {h0 h1 : Byte} {rest : List Byte} (hok : replyRestOk p h0 h1 rest = true) :
    3 ≤ rest.length ∧ rest.drop (rest.length - 2) = footerBytes := by
  simp only [replyRestOk, Bool.and_eq_true, decide_eq_true_eq, beq_iff_eq] at hok
  obtain ⟨⟨hlen, hfoot⟩, -⟩ := hok
  exact ⟨hlen, hfoot⟩

/-- R108: unescaping the whole raw reply unescapes its middle only. -/
theorem unescape_wireFrame {h0 h1 : Byte} {rest : List Byte} (hh0 : plainByte h0 = true) (hh1 : plainByte h1 = true)
    (hfoot : rest.drop (rest.length - 2) = footerBytes) : unescape (wireFrame h0 h1 rest) = h0 :: h1 :: rest :=
  calc unescape (wireFrame h0 h1 rest)
      = h0 :: h1 :: unescape (escape (rest.take (rest.length - 2)) ++ rest.drop (rest.length - 2)) := by
        simp [wireFrame, unescape_cons_of_plainByte hh0, unescape_cons_of_plainByte hh1]
    _ = h0 :: h1 :: (rest.take (rest.length - 2) ++ rest.drop (rest.length - 2)) := by
        rw [unescape_escape_append, hfoot, unescape_footerBytes]
    _ = h0 :: h1 :: rest := by rw [List.take_append_drop]

/-- R82: a well-formed reply decodes by its header. -/
theorem decode_wireFrame {p : Params} {h0 h1 : Byte} {rest : List Byte} (hh0 : plainByte h0 = true)
    (hh1 : plainByte h1 = true) (hok : replyRestOk p h0 h1 rest = true) :
    decode (.wire .reply (wireFrame h0 h1 rest)) = .ok (decodeReplyBody h0 h1 rest) := by
  obtain ⟨hlen, hfoot⟩ := replyRestOk_shape hok
  simp only [decode, decodeReply, unescape_wireFrame hh0 hh1 hfoot, if_pos hlen]

/-- R132: checksum byte, payload and footer are cut apart where they were put together. -/
theorem decodeReplyBody_get (cs : Byte) (payload : List Byte) (f0 f1 : Byte) :
    decodeReplyBody 0x01#8 0x00#8 (cs :: payload ++ [f0, f1]) = .rplGetOk cs payload f0 f1 := by
  simp [decodeReplyBody]

/-- R135: a header that is none of the six. -/
theorem decodeReplyBody_unknown {h0 h1 : Byte} (h : headerUnknown h0 h1 = true) (rest : List Byte) :
    decodeReplyBody h0 h1 rest = .rplUnknownHeader h0 h1 rest := by
  have hnone : ∀ b ∈ [0x00#8, 0x80#8, 0x01#8, 0x02#8, 0x03#8, 0x04#8], ¬ (h0 = 0x01#8 ∧ h1 = b) := by
    rintro b hb ⟨rfl, rfl⟩
    fin_cases hb <;> cases h
  simp only [List.forall_mem_cons] at hnone
  obtain ⟨hget, hset, htiming, hchecksum, hcommand, hregister, -⟩ := hnone
  rw [decodeReplyBody, if_neg hget, if_neg hset, if_neg htiming, if_neg hchecksum, if_neg hcommand, if_neg hregister]

end Sys2Proof.Laws
end

section
/-! O6, O12, O13, O14: the encoding of requests, frames and replies (R70 to R76, R80 to R84). -/

namespace Sys2Proof.Laws
open Sys2Proof Sys2Proof.Machine

/-- Settles O12: the port's signals and the control codes are read off; a request frame is rebuilt from its payload; a reply
is unescaped whole and told by its header. -/
theorem decodeUndoesEncode : Obligations.DecodeUndoesEncode := by
  intro p i hwf
  cases i with
  | read | write => rfl
  | frmGetReq cmd =>
    simp only [Instr.wf, Bool.and_eq_true, decide_eq_true_eq] at hwf
    obtain ⟨hpos, hlen⟩ := hwf
    exact decode_build_hdrGet hpos hlen
  | frmSetReq payload =>
    simp only [Instr.wf, Bool.and_eq_true, decide_eq_true_eq] at hwf
    obtain ⟨hpos, -⟩ := hwf
    exact decode_build_hdrSet hpos
  | rplGetOk cs payload f0 f1 => exact (decode_wireFrame rfl rfl hwf).trans (by rw [decodeReplyBody_get])
  | rplSetAck | rplErrTiming | rplErrChecksum | rplErrUnknownCmd | rplErrUnknownReg => exact decode_wireFrame rfl rfl hwf
  | rplUnknownHeader h0 h1 rest =>
    simp only [Instr.wf, Bool.and_eq_true] at hwf
    obtain ⟨⟨⟨hunknown, hh0⟩, hh1⟩, hok⟩ := hwf
    exact (decode_wireFrame hh0 hh1 hok).trans (by rw [decodeReplyBody_unknown hunknown])
  | ctlStxOut | ctlDleAckIn | ctlNak | ctlEchoDleStx | ctlEchoStx | ctlDleReq | ctlDleAckOut => rfl
  | escDle | esc2B | footer => rfl

/-- Settles O6: the escape region is checksum byte and payload with one byte more for each `10` and `2B`; at most it is twice
as long. -/
theorem requestFrameLengthFitsBuffer : Obligations.RequestFrameLengthFitsBuffer := by
  intro hdr p hhdr
  constructor
  · rw [build_length hhdr, escape_length, List.length_cons]
    omega
  · intro par hfit
    have hregion := escape_length_le (checksum (hdr ++ [0#8] ++ p) :: p)
    rw [List.length_cons] at hregion
    rw [build_length hhdr, Params.txfMax]
    omega

/-- Settles O13: the decoder answers a request frame only where the builder makes the same bytes of its payload. -/
theorem encodeUndoesFrameDecode : Obligations.EncodeUndoesFrameDecode := by
  intro f i hd
  obtain ⟨p, rfl, rfl⟩ | ⟨p, rfl, rfl⟩ := decodeFrame_ok hd <;> rfl

/-- Settles O14: each word is the encoding of a well-formed instruction. -/
theorem writtenWordsDecode : Obligations.WrittenWordsDecode :=
  have hword (i : Instr) (hwf : i.wf Params.std = true) : decode (encode i) = .ok i := decodeUndoesEncode Params.std i hwf
  ⟨hword (.frmGetReq [0xFB#8]) rfl, hword (.frmSetReq [0x0A#8, 0x05#8, 0x10#8, 0x2B#8]) rfl,
    hword (.rplErrUnknownCmd [0x04#8, 0x10#8, 0x03#8]) rfl, hword (.rplGetOk 0x2B#8 [0x2A#8] 0x10#8 0x03#8) rfl,
    hword .ctlNak rfl, hword .ctlEchoDleStx rfl, hword .esc2B rfl⟩

end Sys2Proof.Laws
end

section
/-! O1 to O5: the codec (R100 to R108). The checksum is the sum of the byte ring, so order and grouping are those of a sum. -/

namespace Sys2Proof.Laws
open Sys2Proof Sys2Proof.Machine

/-- R100: a byte adds to the next modulo 256. -/
theorem checksum_eq_sum (s : List Byte) : checksum s = s.sum := by
  induction s with
  | nil => rfl
  | cons a s ih => rw [checksum_cons, List.sum_cons, ih]

/-- Settles O1, by induction on the sequence: the sum of bytes wraps where that of numbers is reduced. -/
theorem checksumIsByteSumMod256 : Obligations.ChecksumIsByteSumMod256 := by
  intro s
  induction s with
  | nil => rfl
  | cons a s ih => rw [checksum_cons, BitVec.toNat_add, ih, List.map_cons, List.sum_cons, Nat.add_mod_mod]

/-- Settles O2: the sum of a concatenation and of a permutation. -/
theorem checksumOfConcatenationAndOrder : Obligations.ChecksumOfConcatenationAndOrder := by
  constructor
  · intro s t
    simp only [checksum_eq_sum, List.sum_append]
  · intro s t hperm
    simp only [checksum_eq_sum, hperm.sum_eq]

/-- Settles O3: the count of special bytes is what the escape adds. -/
theorem escapeLengthCountsSpecialBytes : Obligations.EscapeLengthCountsSpecialBytes := by
  intro s
  have hlen := escape_length s
  exact ⟨hlen, by omega, escape_length_le s⟩

/-- Settles O4: the round trip, and a pair that becomes one byte. -/
theorem unescapeUndoesEscape : Obligations.UnescapeUndoesEscape := ⟨unescape_escape, unescape_length_le⟩

/-- Settles O5: no header byte of R71 opens an escape pair, the middle is read back whatever follows it, and the footer is no
pair. -/
theorem wholeFrameUnescapeKeepsHeaderAndFooter : Obligations.WholeFrameUnescapeKeepsHeaderAndFooter := by
  intro h1 m hmem
  have hplain : plainByte h1 = true := by fin_cases hmem <;> rfl
  calc unescape ([0x01#8, h1] ++ escape m ++ footerBytes)
      = 0x01#8 :: h1 :: unescape (escape m ++ footerBytes) := by
        simp only [List.cons_append, List.nil_append]
        rw [unescape_cons_of_plainByte rfl, unescape_cons_of_plainByte hplain]
    _ = [0x01#8, h1] ++ m ++ footerBytes := by
        rw [unescape_escape_append, unescape_footerBytes]
        rfl

end Sys2Proof.Laws
end

section
/-! O18: the invariant of the block is kept by every step (R109). A move of `st`, an abort and the count of a tick are proved
once for every state that meets the invariant; the states between two parts of a rule meet it too. -/

namespace Sys2Proof.Laws
open Sys2Proof Sys2Proof.Machine

/-! ### The parameters -/

/-- R6 to R9: a time limit is at least one tick. -/
theorem timerLimit_pos {p : Params} (hp : p.ok = true) {x : St} {limit : Nat} (h : timerLimit p x = some limit) :
    0 < limit := by
  simp only [Params.ok, Bool.and_eq_true, decide_eq_true_eq] at hp
  obtain ⟨⟨⟨⟨⟨-, hack⟩, hecho⟩, hrx⟩, hdelay⟩, -⟩ := hp
  cases x <;> cases h <;> assumption

/-- R18: `timer` is as wide as the longest of the four times asks. -/
theorem timerLimit_le_maxTime {p : Params} {x : St} {limit : Nat} (h : timerLimit p x = some limit) :
    limit ≤ p.maxTime := by
  cases x <;> cases h <;> simp [Params.maxTime]

/-! ### Operations that several rules run -/

/-- R109: going on in the state `x` with the timer at `n`. A request that is in flight afterwards was so before; the rest is
what the invariant asks of `x` and `n`. -/
theorem invariant_moveTo {s : State} {x : St} {n : Nat} (hs : Invariant s)
    (hflight : x.inFlight = true → s.st.inFlight = true) (hframe : x ≠ .txFrame) (hdone : x ≠ .done)
    (hretry : x = .retryWait ∨ x = .flush → s.attempt ≤ s.par.nRetry)
    (hbelow : ∀ limit, timerLimit s.par x = some limit → n < limit) (hfits : n ≤ s.par.maxTime) :
    Invariant { s with st := x, timer := n } :=
  { hs with
    idxInFrame := fun h => absurd h hframe
    frameBuilt := fun h => hs.frameBuilt (hflight h)
    timerBelow := hbelow
    timerFits := hfits
    attemptMade := fun h => hs.attemptMade (hflight h)
    retryRemains := hretry
    resultIsLast := fun h => absurd h hdone }

/-- R154, R156, R159: a step that the device is to answer begins with a fresh timer. -/
theorem invariant_beginWait {s : State} {x : St} (hs : Invariant s) (hflight : s.st.inFlight = true) (hx : x.waits = true) :
    Invariant { s with st := x, timer := 0 } :=
  invariant_moveTo hs (fun _ => hflight) (by rintro rfl; cases hx) (by rintro rfl; cases hx)
    (by rintro (rfl | rfl) <;> cases hx) (fun _ => timerLimit_pos hs.parOk) (Nat.zero_le _)

/-- A state that counts no ticks is entered with the timer as it is. -/
theorem invariant_enterUntimed {s : State} {x : St} (hs : Invariant s) (hflight : x.inFlight = true → s.st.inFlight = true)
    (hframe : x ≠ .txFrame) (hdone : x ≠ .done) (hretry : x = .retryWait ∨ x = .flush → s.attempt ≤ s.par.nRetry)
    (hx : ∀ p, timerLimit p x = none) : Invariant { s with st := x } :=
  invariant_moveTo hs hflight hframe hdone hretry (fun limit h => by rw [hx] at h; cases h) hs.timerFits

/-- R44: an emptied receive buffer. -/
theorem invariant_emptyRxb {s : State} (hs : Invariant s) : Invariant { s with rxb := [], rxLen := 0, rxOvf := false } :=
  { hs with
    rxbCovers := rfl
    rxFits := Nat.zero_le _
    ovfFull := nofun }

/-- R171: an attempt in flight ends with an error and its step as R190 pairs them. -/
theorem invariant_abort {s : State} {e : Result} {k : ErrStep} (info : BitVec 16) (hs : Invariant s)
    (hflight : s.st.inFlight = true) (hfits : stepFits e k = true) : Invariant (abort e k info s) := by
  obtain ⟨hretry, h⟩ | ⟨-, h⟩ := abort_cases e k info s <;> rw [h]
  · exact { hs with
      idxInFrame := nofun
      frameBuilt := fun _ => hs.frameBuilt hflight
      timerBelow := fun _ => timerLimit_pos hs.parOk
      timerFits := Nat.zero_le _
      attemptMade := fun _ => hs.attemptMade hflight
      retryRemains := fun _ => hretry
      errStepFits := hfits
      resultIsLast := nofun }
  · exact { hs with
      respCovers := rfl
      respFits := Nat.zero_le _
      idxInFrame := nofun
      frameBuilt := nofun
      timerBelow := nofun
      attemptMade := nofun
      retryRemains := nofun
      errStepFits := hfits
      resultIsLast := fun _ => rfl
      dataOnlyOk := fun _ => rfl }

/-- R168: a tick that does not reach the limit is counted. -/
theorem invariant_tick {s : State} {limit : Nat} (hs : Invariant s) (hlimit : timerLimit s.par s.st = some limit)
    (h : s.timer + 1 < limit) : Invariant { s with timer := s.timer + 1 } :=
  { hs with
    timerBelow := fun l hl => by rw [hlimit] at hl; cases hl; exact h
    timerFits := h.le.trans (timerLimit_le_maxTime hlimit) }

/-- R168, R169: in a state that counts ticks up to `limit`, the last tick ends the attempt as the timeout of its step. -/
theorem invariant_countTick {s : State} {limit : Nat} {k : ErrStep} (info : BitVec 16) (hs : Invariant s)
    (hflight : s.st.inFlight = true) (hlimit : timerLimit s.par s.st = some limit)
    (hfits : stepFits .handshakeTimeout k = true) : Invariant (countTick limit k info s) := by
  obtain ⟨-, h⟩ | ⟨-, -, h⟩ | ⟨-, htick, h⟩ := countTick_cases limit k info s <;> rw [h]
  · exact hs
  · exact invariant_abort info hs hflight hfits
  · exact invariant_tick hs hlimit htick

/-! ### Reset and requests -/

theorem invariant_resetBlock {s : State} (hs : Invariant s) : Invariant (resetBlock s) where
  parOk := hs.parOk
  txfCovers := rfl
  rxbCovers := rfl
  respCovers := rfl
  txfFits := Nat.zero_le _
  rxFits := Nat.zero_le _
  respFits := Nat.zero_le _
  idxInFrame := nofun
  idxFits := Nat.zero_le _
  frameBuilt := nofun
  timerBelow := nofun
  timerFits := Nat.zero_le _
  attemptFits := Nat.zero_le _
  attemptMade := nofun
  retryRemains := nofun
  errStepFits := rfl
  resultIsLast := nofun
  dataOnlyOk := fun _ => rfl
  ovfFull := nofun

theorem invariant_refuseRequest {s : State} (hs : Invariant s) : Invariant (refuseRequest s) :=
  { invariant_emptyRxb hs with
    respCovers := rfl
    respFits := Nat.zero_le _
    idxInFrame := nofun
    frameBuilt := nofun
    timerBelow := nofun
    attemptFits := Nat.zero_le _
    attemptMade := nofun
    retryRemains := nofun
    errStepFits := rfl
    resultIsLast := fun _ => rfl
    dataOnlyOk := fun _ => rfl }

theorem requestHeader_length (r : Request) : (requestHeader r).length = 2 := by
  rw [requestHeader]; split <;> rfl

/-- R120: the command bytes of a well-formed request. -/
theorem cmdBytes_length {n : BitVec 2} (c0 c1 c2 : Byte) (h : n.toNat ≤ 3) : (cmdBytes n c0 c1 c2).length = n.toNat := by
  simpa [cmdBytes] using h

/-- R127: the payload of a well-formed request has a length that R75 or R76 allows, by the kind of the request. -/
theorem requestPayload_length {par : Params} {r : Request} {p : List Byte} (hwf : requestWellFormed par r = true)
    (hp : requestPayload r = some p) :
    1 ≤ p.length ∧
      ((requestHeader r = hdrGet ∧ p.length ≤ 3) ∨ (requestHeader r = hdrSet ∧ p.length ≤ 3 + par.maxWdata)) := by
  simp only [requestWellFormed, Bool.and_eq_true, Bool.or_eq_true, beq_iff_eq, decide_eq_true_eq] at hwf
  obtain ⟨⟨hpos, hmax⟩, hkind⟩ := hwf
  have hcmd := cmdBytes_length r.cmd0 r.cmd1 r.cmd2 hmax
  rw [requestPayload] at hp
  split_ifs at hp with hread
  · cases hp
    exact ⟨by omega, .inl ⟨if_pos hread, by omega⟩⟩
  · have hwlen : r.wlen ≤ par.maxWdata := hkind.resolve_left hread
    rw [valueBytes] at hp
    split_ifs at hp with hbus
    · have hlen : p.length = r.cmdLen.toNat + r.wlen := by
        rw [← Option.some.inj hp, List.length_append, hcmd, List.length_take, min_eq_left hbus]
      exact ⟨by omega, .inr ⟨if_neg hread, by omega⟩⟩
    · cases hp

/-- R153: an accepted request has its frame in `txf`, which it fits (R11), and everything else at the start. -/
theorem invariant_accept {s : State} {r : Request} {p : List Byte} (hs : Invariant s)
    (hwf : requestWellFormed s.par r = true) (hp : requestPayload r = some p) :
    Invariant (accept (requestHeader r) p s) := by
  obtain ⟨hpos, hkind⟩ := requestPayload_length hwf hp
  have hfit : (build (requestHeader r) p).length ≤ s.par.txfMax := by
    obtain ⟨-, hfits⟩ := requestFrameLengthFitsBuffer (requestHeader r) p (requestHeader_length r)
    exact hfits s.par (by omega)
  have hframe : txBytes (accept (requestHeader r) p s) = some (build (requestHeader r) p) := Memory.readRange_ofBytes _
  exact { invariant_emptyRxb hs with
    txfCovers := Memory.covers_ofBytes _
    respCovers := rfl
    txfFits := hfit
    respFits := Nat.zero_le _
    idxInFrame := nofun
    idxFits := Nat.zero_le _
    frameBuilt := fun _ => ⟨p, hpos,
      hkind.imp (fun ⟨hhdr, hlen⟩ => ⟨hlen, hhdr ▸ hframe⟩) fun ⟨hhdr, hlen⟩ => ⟨hlen, hhdr ▸ hframe⟩⟩
    timerBelow := nofun
    timerFits := Nat.zero_le _
    attemptFits := Nat.le_add_left 1 _
    attemptMade := fun _ => le_refl 1
    retryRemains := nofun
    errStepFits := rfl
    resultIsLast := nofun
    dataOnlyOk := fun _ => rfl }

/-! ### Sending -/

/-- R121: a request frame is not empty. -/
theorem requestFrame_length_pos {s : State} (h : requestFrame s) : 0 < s.txfLen := by
  obtain ⟨p, -, ⟨-, hf⟩ | ⟨-, hf⟩⟩ := h <;> rw [← Memory.readRange_length hf] <;> simp [build, footerBytes]

/-- R155: the frame is sent from its first byte. -/
theorem invariant_ackReceived {s : State} (hs : Invariant s) (hst : s.st = .wAck) : Invariant (ackReceived s) := by
  have hframe : requestFrame s := hs.frameBuilt (by rw [hst]; rfl)
  exact { hs with
    idxInFrame := fun _ => requestFrame_length_pos hframe
    idxFits := Nat.zero_le _
    frameBuilt := fun _ => hframe
    timerBelow := nofun
    attemptMade := fun _ => hs.attemptMade (by rw [hst]; rfl)
    retryRemains := nofun
    resultIsLast := nofun }

/-- R156: the index stays in the frame until its last byte is sent. -/
theorem invariant_frameByteSent {s : State} (hs : Invariant s) (hst : s.st = .txFrame) : Invariant (frameByteSent s) := by
  obtain ⟨-, h⟩ | ⟨hmore, h⟩ := frameByteSent_cases s <;> rw [h]
  · exact invariant_beginWait hs (by rw [hst]; rfl) rfl
  · have hnext : s.txIdx + 1 < s.txfLen := by have := hs.idxInFrame hst; omega
    exact { hs with
      idxInFrame := fun _ => hnext
      idxFits := hnext.le.trans hs.txfFits }

/-- R159: step 3 begins with an empty receive buffer. -/
theorem invariant_requestSent {s : State} (hs : Invariant s) (hst : s.st = .txDleReq) : Invariant (requestSent s) :=
  invariant_beginWait (x := .rx) (invariant_emptyRxb hs) (by simp only [hst]; rfl) rfl

/-! ### Waiting for the device -/

/-- R157, R158: step 2 is acknowledged. -/
theorem invariant_echoComplete {s : State} (hs : Invariant s) (hflight : s.st.inFlight = true) :
    Invariant (echoComplete s) :=
  invariant_enterUntimed hs (fun _ => hflight) nofun nofun nofun fun _ => rfl

/-- R157: the step goes on in W_ECHO2 with the same limit. -/
theorem invariant_echoBegun {s : State} (hs : Invariant s) (hst : s.st = .wEcho) : Invariant (echoBegun s) := by
  have hmoved : Invariant { s with st := .wEcho2 } :=
    invariant_moveTo hs (fun _ => by rw [hst]; rfl) nofun nofun nofun
      (fun limit hlimit => hs.timerBelow limit (by rw [hst]; exact hlimit)) hs.timerFits
  exact invariant_countTick 0#16 hmoved rfl rfl rfl

/-! ### Receiving and judging a reply -/

/-- R161. -/
theorem rxFull_eq_true_iff {s : State} : rxFull s = true ↔ s.par.maxRx ≤ s.rxLen := by simp [rxFull]

/-- R160: the byte goes to the first index without a value, and the flag is not set before the buffer is full. -/
theorem invariant_storeByte {s : State} (b : Byte) (hs : Invariant s) (hroom : s.rxLen < s.par.maxRx) :
    Invariant (storeByte b s) := by
  have hcovers : (s.rxb.write s.rxLen b).covers (s.rxLen + 1) = true := by
    obtain ⟨raw, hlen, hrxb⟩ := (Memory.covers_iff _ _).1 hs.rxbCovers
    rw [hrxb, ← hlen, Memory.write_ofBytes]
    simpa using Memory.covers_ofBytes (raw ++ [b])
  exact { hs with
    rxbCovers := hcovers
    rxFits := hroom
    ovfFull := fun h => absurd (hs.ovfFull h) hroom.ne }

/-- R160 to R162. -/
theorem invariant_receiveByte {b : Byte} {s t : State} (hs : Invariant s) (hst : s.st = .rx)
    (h : receiveByte b s = .next t) : Invariant t := by
  have hflight : s.st.inFlight = true := by rw [hst]; rfl
  obtain ⟨hfull, rfl⟩ | ⟨hroom, old, -, hstored⟩ := receiveByte_next h
  · have hflag : Invariant { s with rxOvf := true } :=
      { hs with ovfFull := fun _ => le_antisymm hs.rxFits (rxFull_eq_true_iff.1 hfull) }
    exact invariant_abort _ hflag hflight rfl
  · have hmore : Invariant (storeByte b s) :=
      invariant_storeByte b hs (by simpa [rxFull] using hroom)
    obtain ⟨-, rfl⟩ | ⟨-, rfl⟩ := hstored
    · exact invariant_enterUntimed hmore (fun _ => hflight) nofun nofun nofun fun _ => rfl
    · exact invariant_countTick _ hmore hflight (by rw [storeByte_st, storeByte_par, hst]; rfl) rfl

/-- R130, R190: the parser answers OK, or an error of step 4 without data. -/
theorem parse_ok_or_error (raw : List Byte) :
    (parse raw).code = .ok ∨
      ((parse raw).code ≠ .ok ∧ stepFits (parse raw).code .step4 = true ∧ (parse raw).data = []) := by
  simp only [parse]
  split_ifs <;> simp [stepFits]

/-- R163: the result of the reply. Its data is no longer than the raw reply, so it fits `resp_data`. -/
theorem invariant_finishReply {s t : State} (hs : Invariant s) (h : finishReply s = .next t) : Invariant t := by
  obtain ⟨raw, -, hfin⟩ := finishReply_next h
  obtain ⟨hlen, rfl⟩ := finish_next hfin
  have hresult := parse_ok_or_error raw
  exact { hs with
    respCovers := Memory.covers_ofBytes _
    respFits := hlen
    idxInFrame := nofun
    frameBuilt := nofun
    timerBelow := nofun
    attemptMade := nofun
    retryRemains := nofun
    errStepFits := by
      obtain hok | ⟨herr, hstep, -⟩ := hresult
      · rw [if_pos hok, hok]; rfl
      · rw [if_neg herr]; exact hstep
    resultIsLast := fun _ => rfl
    dataOnlyOk := fun hcode => by
      obtain ⟨-, -, hdata⟩ := hresult.resolve_left hcode
      simp [hdata] }

/-! ### Retry -/

/-- R164: the delay is counted like a step, and FLUSH follows it. -/
theorem invariant_delayTick {s : State} (hs : Invariant s) (hst : s.st = .retryWait) : Invariant (delayTick s) := by
  obtain ⟨-, h⟩ | ⟨htick, h⟩ := delayTick_cases s <;> rw [h]
  · have hretry : s.attempt ≤ s.par.nRetry := hs.retryRemains (.inl hst)
    exact invariant_enterUntimed hs (fun _ => by rw [hst]; rfl) nofun nofun (fun _ => hretry) fun _ => rfl
  · exact invariant_tick hs (by rw [hst]; rfl) htick

/-- R165: FLUSH is entered only while a retry remains, so one attempt more stays in its bound. -/
theorem invariant_retryRestart {s : State} (hs : Invariant s) (hst : s.st = .flush) : Invariant (retryRestart s) :=
  { invariant_emptyRxb hs with
    idxInFrame := nofun
    frameBuilt := fun _ => hs.frameBuilt (by rw [hst]; rfl)
    timerBelow := nofun
    attemptFits := Nat.succ_le_succ (hs.retryRemains (.inr hst))
    attemptMade := fun _ => Nat.le_add_left 1 _
    retryRemains := nofun
    resultIsLast := nofun }

/-! ### The rules and the step -/

/-- R38: a byte is received in a wait state only. -/
theorem waits_of_got {s : State} {b : Byte} (h : got s = some b) : s.st.waits = true := by
  rw [got] at h
  split_ifs at h with hready
  obtain hst | hst | hst | hst := (rxReady_iff s).1 hready <;> rw [hst] <;> rfl

/-- A wait state is a state of a request in flight. -/
theorem inFlight_of_waits {x : St} : x.waits = true → x.inFlight = true := by
  cases x <;> simp [St.waits, St.inFlight]

/-- R168: without a byte each wait state counts against its own limit and times out as its own step. -/
theorem invariant_rule_of_no_byte {s t : State} (hs : Invariant s) (hwaits : s.st.waits = true) (hgot : got s = none)
    (h : rule s = .next t) : Invariant t := by
  rw [rule] at h
  cases hst : s.st <;> simp only [hst] at h
  case wAck | wEcho | wEcho2 | rx =>
    simp only [ruleWAck, ruleWEcho, ruleWEcho2, ruleRx, hgot] at h
    cases h
    exact invariant_countTick _ hs (inFlight_of_waits hwaits) (by rw [hst]; rfl) rfl
  all_goals rw [hst] at hwaits; cases hwaits

/-- R155, R157, R158, R160: a byte acknowledges its step, is stored, or is rejected as an error of step 1 or 2. -/
theorem invariant_rule_of_byte {s t : State} {b : Byte} (hs : Invariant s) (hgot : got s = some b)
    (h : rule s = .next t) : Invariant t := by
  have hwaits : s.st.waits = true := waits_of_got hgot
  have hflight : s.st.inFlight = true := inFlight_of_waits hwaits
  rw [rule] at h
  cases hst : s.st <;> simp only [hst] at h
  case wAck =>
    simp only [ruleWAck, hgot] at h
    split_ifs at h <;> cases h
    · exact invariant_ackReceived hs hst
    · exact invariant_abort _ hs hflight rfl
  case wEcho =>
    simp only [ruleWEcho, hgot] at h
    split_ifs at h <;> cases h
    · exact invariant_echoComplete hs hflight
    · exact invariant_echoBegun hs hst
    · exact invariant_abort _ hs hflight rfl
  case wEcho2 =>
    simp only [ruleWEcho2, hgot] at h
    split_ifs at h <;> cases h
    · exact invariant_echoComplete hs hflight
    · exact invariant_abort _ hs hflight rfl
  case rx =>
    simp only [ruleRx, hgot] at h
    exact invariant_receiveByte hs hst h
  all_goals rw [hst] at hwaits; cases hwaits

/-- R109, R151: every rule keeps the invariant. -/
theorem invariant_rule {s t : State} (hs : Invariant s) (h : rule s = .next t) : Invariant t := by
  cases rule_next h with
  | wait => exact hs
  | accept p hst hreq hwf hp => exact invariant_accept hs hwf hp
  | refuse => exact invariant_refuseRequest hs
  | stxSent hst => exact invariant_beginWait hs (by rw [hst]; rfl) rfl
  | frameByteSent hst => exact invariant_frameByteSent hs hst
  | requestSent hst => exact invariant_requestSent hs hst
  | finishReply hst hsent ht => exact invariant_finishReply hs ht
  | delayTick hst => exact invariant_delayTick hs hst
  | retryRestart hst => exact invariant_retryRestart hs hst
  | releaseResult => exact invariant_enterUntimed hs nofun nofun nofun nofun fun _ => rfl
  | countTick limit k info hwaits hgot => exact invariant_rule_of_no_byte hs hwaits hgot h
  | ackReceived hst hgot | echoComplete hst hgot | echoBegun hst hgot | rejectByte k b hst hgot | receiveByte b hst hgot =>
    exact invariant_rule_of_byte hs hgot h

/-- The environment's side of a cycle writes no register that the invariant speaks of. -/
theorem invariant_closeCycle {s t u : State} (ht : Invariant t) (h : closeCycle s t = .next u) : Invariant u := by
  obtain ⟨out, -, rfl⟩ := closeCycle_next h
  exact { ht with }

/-- Settles O18: a reset writes the values of R43, a rule keeps the invariant operation by operation, and closing the cycle
writes no register. -/
theorem stepKeepsInvariant : Obligations.StepKeepsInvariant := by
  intro s u hs hstep
  cases hrst : s.inp.rst
  case true =>
    rw [step_of_rst hrst] at hstep
    exact invariant_closeCycle (invariant_resetBlock hs) hstep
  case false =>
    rw [step_eq_andThen_rule hrst, andThen_eq_next] at hstep
    obtain ⟨t, hrule, hclose⟩ := hstep
    exact invariant_closeCycle (invariant_rule hs hrule) hclose

end Sys2Proof.Laws
end

section
/-! O7, O8, O9: what PARSE answers (R130 to R137), by the length and by the header of the unescaped reply. -/

namespace Sys2Proof.Laws
open Sys2Proof Sys2Proof.Machine

/-- R131: the length is tested before the header. -/
theorem parse_of_short {raw : List Byte} (hshort : (unescape raw).length < 5) :
    parse raw = ⟨.frameTooShort, [], countInfo (unescape raw).length⟩ := if_pos hshort

/-- R135: an unknown header is none of the six of R71. -/
theorem headerUnknown_iff {h0 h1 : Byte} :
    headerUnknown h0 h1 = true ↔
      ¬ (h0 = 0x01#8 ∧ h1 = 0x00#8) ∧ ¬ (h0 = 0x01#8 ∧ h1 = 0x80#8) ∧ ¬ (h0 = 0x01#8 ∧ h1 = 0x01#8) ∧
      ¬ (h0 = 0x01#8 ∧ h1 = 0x02#8) ∧ ¬ (h0 = 0x01#8 ∧ h1 = 0x03#8) ∧ ¬ (h0 = 0x01#8 ∧ h1 = 0x04#8) := by
  by_cases hfirst : h0 = 0x01#8 <;> simp [headerUnknown, hfirst, and_assoc]

/-- R121: the checksum's own position, read as zero, adds nothing. -/
theorem checksum_zero_between (s t : List Byte) : checksum (s ++ [0#8] ++ t) = checksum (s ++ t) := by
  simp [checksum_eq_sum]

/-- R108, R121: the bytes of a built GET frame, read back. -/
theorem unescape_build_hdrGet (p : List Byte) :
    unescape (build hdrGet p) = 0x01#8 :: 0x00#8 :: checksum (hdrGet ++ p) :: (p ++ footerBytes) := by
  rw [build, checksum_zero_between]
  exact wholeFrameUnescapeKeepsHeaderAndFooter 0x00#8 (checksum (hdrGet ++ p) :: p) List.mem_cons_self

/-- Settles O7: a length below 5 is its own detail. -/
theorem parseTestsLengthFirst : Obligations.ParseTestsLengthFirst := by
  intro r hshort
  rw [parse_of_short hshort, countInfo_of_lt (by omega)]

/-- Settles O8: PARSE by header, for bytes after the header that begin with the checksum byte. -/
theorem parseResultByHeader : Obligations.ParseResultByHeader := by
  intro r h0 h1 cs mid hu hmid payload c
  have hparse := parse_of_header hu (Nat.succ_le_succ hmid)
  refine ⟨?getMatch, ?getMismatch, ?set, ?timing, ?checksum, ?command, ?register, ?unknown⟩
  case getMatch => rintro ⟨rfl, rfl⟩ hsum; exact hparse.trans (if_pos hsum)
  case getMismatch => rintro ⟨rfl, rfl⟩ hsum; exact hparse.trans (if_neg hsum)
  case unknown =>
    intro hunknown
    obtain ⟨hget, hset, htiming, hchecksum, hcommand, hregister⟩ := headerUnknown_iff.1 hunknown
    rw [hparse, if_neg hget, if_neg hset, if_neg htiming, if_neg hchecksum, if_neg hcommand, if_neg hregister]
  -- the five headers of R71 that are left settle every test of `hparse` by evaluation
  all_goals rintro ⟨rfl, rfl⟩; exact hparse

/-- Settles O9: a built GET frame is read back as header, matching checksum, payload and footer, so O8 gives its result. -/
theorem parseUndoesBuild : Obligations.ParseUndoesBuild := by
  intro p
  have hpayload : (p ++ footerBytes).take ((p ++ footerBytes).length - 2) = p := by simp [footerBytes]
  obtain ⟨hmatch, -⟩ := parseResultByHeader (build hdrGet p) _ _ _ _ (unescape_build_hdrGet p) (by simp [footerBytes])
  rw [hpayload] at hmatch
  exact hmatch ⟨rfl, rfl⟩ rfl

end Sys2Proof.Laws
end

section
/-! O23, O24, O25: the requests in IDLE (R125 to R127, R152, R153). A 2-bit command length is legal exactly when it is
not 0. -/

namespace Sys2Proof.Laws
open Sys2Proof Sys2Proof.Machine

/-- R127: two bits count at most 3 command bytes. -/
theorem readWellFormed_iff {n : BitVec 2} : readWellFormed n = true ↔ n ≠ 0#2 := by
  simp only [readWellFormed, Bool.and_eq_true, decide_eq_true_eq]
  bv_omega

/-- R127: a WRITE also has its value length bounded. -/
theorem writeWellFormed_iff {p : Params} {n : BitVec 2} {wlen : Nat} :
    writeWellFormed p n wlen = true ↔ n ≠ 0#2 ∧ wlen ≤ p.maxWdata := by
  rw [writeWellFormed, Bool.and_eq_true, readWellFormed_iff, decide_eq_true_eq]

/-- R126: the value bytes are there. -/
theorem valueBytes_of_le {wlen : Nat} {wdata : List Byte} (h : wlen ≤ wdata.length) :
    valueBytes wlen wdata = some (wdata.take wlen) := if_pos h

/-- Log entry 13: the value bus lacks bytes. -/
theorem valueBytes_of_lt {wlen : Nat} {wdata : List Byte} (h : wdata.length < wlen) : valueBytes wlen wdata = none :=
  if_neg (Nat.not_le.2 h)

/-- R152, R153: a READ in IDLE. -/
theorem exec_read_of_idle {s : State} (hst : s.st = .idle) (n : BitVec 2) (c0 c1 c2 : Byte) :
    exec (.read n c0 c1 c2) s =
      if readWellFormed n then .next (accept hdrGet (cmdBytes n c0 c1 c2) s) else .next (refuseRequest s) := by
  simp only [exec, execRead, hst]

/-- R153: a well-formed WRITE in IDLE whose value bus has the bytes. -/
theorem exec_write_accepted {s : State} (hst : s.st = .idle) {n : BitVec 2} {wlen : Nat} {wdata val : List Byte}
    (c0 c1 c2 : Byte) (hwf : writeWellFormed s.par n wlen = true) (hval : valueBytes wlen wdata = some val) :
    exec (.write n c0 c1 c2 wlen wdata) s = .next (accept hdrSet (cmdBytes n c0 c1 c2 ++ val) s) := by
  simp only [exec, execWrite, hst, hwf, hval, if_true]

/-- Log entry 13: a well-formed WRITE in IDLE whose value bus lacks the bytes. -/
theorem exec_write_shortBus {s : State} (hst : s.st = .idle) {n : BitVec 2} {wlen : Nat} {wdata : List Byte}
    (c0 c1 c2 : Byte) (hwf : writeWellFormed s.par n wlen = true) (hval : valueBytes wlen wdata = none) :
    exec (.write n c0 c1 c2 wlen wdata) s = .refused .shortBus := by
  simp only [exec, execWrite, hst, hwf, hval, if_true]

/-- R152: an ill-formed WRITE in IDLE, whatever its value bus. -/
theorem exec_write_refused {s : State} (hst : s.st = .idle) {n : BitVec 2} {wlen : Nat} (c0 c1 c2 : Byte) (wdata : List Byte)
    (hbad : ¬ writeWellFormed s.par n wlen = true) :
    exec (.write n c0 c1 c2 wlen wdata) s = .next (refuseRequest s) := by
  simp only [exec, execWrite, hst, if_neg hbad]

/-- Settles O23: a command length other than 0 is well-formed, and `accept` writes the named registers alone. -/
theorem readIsAcceptedInIdle : Obligations.ReadIsAcceptedInIdle := by
  intro n c0 c1 c2 s hst hn
  rw [exec_read_of_idle hst, if_pos (readWellFormed_iff.2 hn)]
  rfl

/-- Settles O24: as for a READ, by whether the value bus has the bytes. -/
theorem writeIsAcceptedInIdle : Obligations.WriteIsAcceptedInIdle := by
  intro n c0 c1 c2 wlen wdata s hst hn hwlen
  have hwf := writeWellFormed_iff.2 ⟨hn, hwlen⟩
  exact ⟨fun hbus => exec_write_accepted hst c0 c1 c2 hwf (valueBytes_of_le hbus),
    fun hbus => exec_write_shortBus hst c0 c1 c2 hwf (valueBytes_of_lt hbus)⟩

/-- Settles O25: both kinds of request fail their test of R127, and `refuseRequest` writes the named registers alone. -/
theorem illFormedRequestEndsAsBadRequest : Obligations.IllFormedRequestEndsAsBadRequest := by
  intro n c0 c1 c2 wlen wdata s hst bad
  constructor
  · intro hn
    rw [exec_read_of_idle hst, if_neg fun hwf => readWellFormed_iff.1 hwf hn]
    rfl
  · intro hbad
    refine exec_write_refused hst c0 c1 c2 wdata fun hwf => ?_
    obtain ⟨hn, hwlen⟩ := writeWellFormed_iff.1 hwf
    exact hbad.elim hn (Nat.not_lt.2 hwlen)

end Sys2Proof.Laws
end

section
/-! O31, O32, O33: the replies judged in TX_DLE_ACK (R132 to R135, R163). Each meaning is `finish` with one result; what
`finish` does is said once for a result with data that fits and once for an error. -/

namespace Sys2Proof.Laws
open Sys2Proof Sys2Proof.Machine

/-- R163: an OK result whose data fits `resp_data` (R37). -/
theorem finish_ok {s : State} {data : List Byte} (hfit : data.length ≤ s.par.maxRx) :
    finish ⟨.ok, data, 0#16⟩ s = .next { s with
      respCode := .ok, lastErr := .ok, errStep := .none, errInfo := 0#16,
      respData := Memory.ofBytes data, respLen := data.length, st := .done } := if_pos hfit

/-- R163, R192: an error of step 4 has no data, so it fits. -/
theorem finish_error {e : Result} (he : e ≠ .ok) (info : BitVec 16) (s : State) :
    finish ⟨e, [], info⟩ s = .next { s with
      respCode := e, lastErr := e, errStep := .step4, errInfo := info, respData := [], respLen := 0, st := .done } := by
  simp [finish, he]

/-- R132, R163: a GET reply is judged by the checksum over header and payload. -/
theorem exec_rplGetOk_of_txDleAck {s : State} (hst : s.st = .txDleAck) (cs : Byte) (payload : List Byte) (f0 f1 : Byte) :
    exec (.rplGetOk cs payload f0 f1) s =
      if checksum (hdrGet ++ payload) = cs then finish ⟨.ok, payload, 0#16⟩ s
      else finish ⟨.checksumMismatch, [], pack (checksum (hdrGet ++ payload)) cs⟩ s := by
  simp only [exec, execRplGetOk, hst]

/-- R133, R163: a SET reply is not checked. -/
theorem exec_rplSetAck_of_txDleAck {s : State} (hst : s.st = .txDleAck) (rest : List Byte) :
    exec (.rplSetAck rest) s = finish ⟨.ok, rest, 0#16⟩ s := by
  simp only [exec, execRplSetAck, hst]

/-- Settles O31: the two results of the checksum test. -/
theorem getReplyIsChecked : Obligations.GetReplyIsChecked := by
  intro cs f0 f1 payload s hst c
  have hexec := exec_rplGetOk_of_txDleAck hst cs payload f0 f1
  constructor
  · intro hsum hfit
    exact hexec.trans ((if_pos hsum).trans (finish_ok hfit))
  · intro hsum
    exact hexec.trans ((if_neg hsum).trans (finish_error (e := .checksumMismatch) nofun (pack c cs) s))

/-- Settles O32: everything after the header is the data of an OK result. -/
theorem setReplyIsReturnedVerbatim : Obligations.SetReplyIsReturnedVerbatim := by
  intro rest s hst hfit
  rw [exec_rplSetAck_of_txDleAck hst, finish_ok hfit]

/-- Settles O33: each of the five meanings is `finish` with its error, whatever follows the header. -/
theorem errorRepliesEndWithTheirCode : Obligations.ErrorRepliesEndWithTheirCode := by
  intro rest h0 h1 s hst ended
  have hended : ∀ {e : Result} (info : BitVec 16), e ≠ .ok → finish ⟨e, [], info⟩ s = ended e info :=
    fun info he => finish_error he info s
  simp only [exec, execRplErrTiming, execRplErrChecksum, execRplErrUnknownCmd, execRplErrUnknownReg,
    execRplUnknownHeader, hst]
  exact ⟨hended _ nofun, hended _ nofun, hended _ nofun, hended _ nofun, hended _ nofun⟩

end Sys2Proof.Laws
end

section
/-! SUPPORT. The cycles of 42_handshake.md as equations: which of them send, what the rule of R151 does in a cycle with or
without a byte, and what the tick of a cycle does to a timed step. The statements about single cycles cite these. -/

namespace Sys2Proof.Laws
open Sys2Proof Sys2Proof.Machine

/-! ### Cycles that send nothing -/

/-- R38: a byte is offered in the sending states. -/
theorem txValid_eq_sends (s : State) : txValid s = s.st.sends := by
  unfold txValid
  cases s.st <;> rfl

/-- R38: a byte can be taken in the wait states. -/
theorem rxReady_eq_waits (s : State) : rxReady s = s.st.waits := by
  unfold rxReady
  cases s.st <;> rfl

theorem sent_eq (s : State) : sent s = (s.st.sends && s.inp.txReady) := by rw [sent, txValid_eq_sends]

theorem sent_of_not_sends {s : State} (hst : s.st.sends = false) : sent s = false := by simp [sent_eq, hst]

/-- R38: no state both sends and waits. -/
theorem sends_eq_false_of_waits {x : St} : x.waits = true → x.sends = false := by
  cases x <;> simp [St.waits, St.sends]

/-- The environment's side of a cycle that sends nothing completes, and writes no register. -/
theorem closeCycle_of_not_sent {s : State} (hsent : sent s = false) (t : State) :
    ∃ u, closeCycle s t = .next u ∧ sameRegisters u t := by
  rw [closeCycle, if_neg (by simp [hsent])]
  exact ⟨_, rfl, by simp [sameRegisters]⟩

/-- R151: a cycle that sends nothing ends with the registers that the rule of its state leaves. -/
theorem endsWith_of_rule {s t : State} (hrst : s.inp.rst = false) (hsent : sent s = false) (h : rule s = .next t) :
    endsWith s t := by
  obtain ⟨u, hclose, hsame⟩ := closeCycle_of_not_sent hsent t
  exact ⟨u, by rw [step_eq_andThen_rule hrst, h, andThen_next, hclose], hsame⟩

/-- R151: so does a cycle in which a byte is received. -/
theorem endsWith_of_byte {s t : State} {b : Byte} (hrst : s.inp.rst = false) (hgot : got s = some b)
    (h : rule s = .next t) : endsWith s t :=
  endsWith_of_rule hrst (sent_of_not_sends (sends_eq_false_of_waits (waits_of_got hgot))) h

/-! ### The rules of the sending states -/

/-- R170: a sending state waits for `tx_ready`, whatever the tick. -/
theorem rule_of_not_txReady {s : State} (hsends : s.st.sends = true) (hready : s.inp.txReady = false) :
    rule s = .next s := by
  have hsent : sent s = false := by simp [sent, hready]
  rw [rule]
  cases hst : s.st
  case txStx | txFrame | txDleReq | txDleAck => simp [ruleTxStx, ruleTxFrame, ruleTxDleReq, ruleTxDleAck, hsent]
  all_goals rw [hst] at hsends; cases hsends

/-- R154. -/
theorem rule_txStx_of_sent {s : State} (hst : s.st = .txStx) (hsent : sent s = true) : rule s = .next (stxSent s) := by
  simp only [rule, hst, ruleTxStx, if_pos hsent]

/-- R156. -/
theorem rule_txFrame_of_sent {s : State} (hst : s.st = .txFrame) (hsent : sent s = true) :
    rule s = .next (frameByteSent s) := by
  simp only [rule, hst, ruleTxFrame, if_pos hsent]

/-- R159. -/
theorem rule_txDleReq_of_sent {s : State} (hst : s.st = .txDleReq) (hsent : sent s = true) :
    rule s = .next (requestSent s) := by
  simp only [rule, hst, ruleTxDleReq, if_pos hsent]

/-- R163. -/
theorem rule_txDleAck_of_sent {s : State} (hst : s.st = .txDleAck) (hsent : sent s = true) : rule s = finishReply s := by
  simp only [rule, hst, ruleTxDleAck, if_pos hsent]

/-! ### The rules of the wait states -/

/-- R155. -/
theorem rule_wAck_of_byte {s : State} {b : Byte} (hst : s.st = .wAck) (hgot : got s = some b) :
    rule s = if b = dle then .next (ackReceived s) else .next (rejectByte .step1 b s) := by
  simp only [rule, hst, ruleWAck, hgot]

/-- R157. -/
theorem rule_wEcho_of_byte {s : State} {b : Byte} (hst : s.st = .wEcho) (hgot : got s = some b) :
    rule s = if b = stx then .next (echoComplete s) else if b = dle then .next (echoBegun s)
      else .next (rejectByte .step2 b s) := by
  simp only [rule, hst, ruleWEcho, hgot]

/-- R158. -/
theorem rule_wEcho2_of_byte {s : State} {b : Byte} (hst : s.st = .wEcho2) (hgot : got s = some b) :
    rule s = if b = stx then .next (echoComplete s) else .next (rejectByte .step2 b s) := by
  simp only [rule, hst, ruleWEcho2, hgot]

/-- R160. -/
theorem rule_rx_of_byte {s : State} {b : Byte} (hst : s.st = .rx) (hgot : got s = some b) : rule s = receiveByte b s := by
  simp only [rule, hst, ruleRx, hgot]

/-- R168: the limit, the step and the detail that a wait state counts its ticks with. -/
def timedAs (s : State) (limit : Nat) (k : ErrStep) (info : BitVec 16) : Prop :=
  (s.st = .wAck ∧ limit = s.par.tAck ∧ k = .step1 ∧ info = 0#16) ∨
  ((s.st = .wEcho ∨ s.st = .wEcho2) ∧ limit = s.par.tEcho ∧ k = .step2 ∧ info = 0#16) ∨
  (s.st = .rx ∧ limit = s.par.tRx ∧ k = .step3 ∧ info = countInfo s.rxLen)

/-- R168: every wait state is timed, against the limit of its state. -/
theorem timedAs_of_waits {s : State} (hwaits : s.st.waits = true) :
    ∃ limit k info, timedAs s limit k info ∧ timerLimit s.par s.st = some limit := by
  cases hst : s.st
  case wAck => exact ⟨_, _, _, .inl ⟨hst, rfl, rfl, rfl⟩, rfl⟩
  case wEcho => exact ⟨_, _, _, .inr (.inl ⟨.inl hst, rfl, rfl, rfl⟩), rfl⟩
  case wEcho2 => exact ⟨_, _, _, .inr (.inl ⟨.inr hst, rfl, rfl, rfl⟩), rfl⟩
  case rx => exact ⟨_, _, _, .inr (.inr ⟨hst, rfl, rfl, rfl⟩), rfl⟩
  all_goals rw [hst] at hwaits; cases hwaits

theorem waits_of_timedAs {s : State} {limit : Nat} {k : ErrStep} {info : BitVec 16} (h : timedAs s limit k info) :
    s.st.waits = true := by
  obtain ⟨hst, -⟩ | ⟨hst | hst, -⟩ | ⟨hst, -⟩ := h <;> rw [hst] <;> rfl

/-- R168: without a byte a wait state counts the tick of the cycle. -/
theorem rule_of_no_byte {s : State} {limit : Nat} {k : ErrStep} {info : BitVec 16} (h : timedAs s limit k info)
    (hgot : got s = none) : rule s = .next (countTick limit k info s) := by
  obtain ⟨hst, rfl, rfl, rfl⟩ | ⟨hst | hst, rfl, rfl, rfl⟩ | ⟨hst, rfl, rfl, rfl⟩ := h <;>
    simp only [rule, hst, ruleWAck, ruleWEcho, ruleWEcho2, ruleRx, hgot]

/-! ### The tick of a cycle -/

/-- R168, R169: what holds of a timed step that goes on holds, tick by tick: without a tick of the state as it is, with a
tick below the limit of the next timer, and with the last tick of the end of the attempt. -/
theorem countTick_split {limit : Nat} {k : ErrStep} {info : BitVec 16} {s : State} (P : State → Prop)
    (h : P (countTick limit k info s)) :
    (s.inp.tick = false → P s) ∧
    (s.inp.tick = true → s.timer + 1 < limit → P { s with timer := s.timer + 1 }) ∧
    (s.inp.tick = true → limit ≤ s.timer + 1 → P (abort .handshakeTimeout k info s)) := by
  obtain ⟨htick, heq⟩ | ⟨htick, hlast, heq⟩ | ⟨htick, hbelow, heq⟩ := countTick_cases limit k info s <;> rw [heq] at h
  · exact ⟨fun _ => h, fun ht => by simp [htick] at ht, fun ht => by simp [htick] at ht⟩
  · exact ⟨fun ht => by simp [htick] at ht, fun _ hlt => by omega, fun _ _ => h⟩
  · exact ⟨fun ht => by simp [htick] at ht, fun _ _ => h, fun _ hle => by omega⟩

/-! ### A byte in RX -/

/-- R160: there is room. -/
theorem rxFull_eq_false_iff {s : State} : rxFull s = false ↔ s.rxLen < s.par.maxRx := by simp [rxFull]

/-- R161: a byte that finds the buffer full. -/
theorem receiveByte_of_full {s : State} (hfull : s.par.maxRx ≤ s.rxLen) (b : Byte) :
    receiveByte b s = .next (abort .handshakeTimeout .step3 (countInfo s.rxLen) { s with rxOvf := true }) :=
  if_pos (rxFull_eq_true_iff.2 hfull)

/-- R160: a byte for which there is room is stored, then completion is asked for, then the tick is counted. -/
theorem receiveByte_of_room {s : State} {old : List Byte} (hroom : rxFull s = false) (hold : rxBytes s = some old)
    (b : Byte) :
    receiveByte b s =
      if rxDone s.par.footerMatch (old ++ [b]) then .next { storeByte b s with st := .txDleAck }
      else .next (countTick s.par.tRx .step3 (countInfo (s.rxLen + 1)) (storeByte b s)) := by
  rw [receiveByte, if_neg (by simp [hroom]), hold]

/-- R160, R162: a byte that does not complete the reply is stored and leaves the tick to be counted. -/
theorem receiveByte_of_incomplete {s : State} {old : List Byte} {b : Byte} (hroom : rxFull s = false)
    (hold : rxBytes s = some old) (hdone : rxDone s.par.footerMatch (old ++ [b]) = false) :
    receiveByte b s = .next (countTick s.par.tRx .step3 (countInfo (s.rxLen + 1)) (storeByte b s)) := by
  rw [receiveByte_of_room hroom hold, if_neg (by simp [hdone])]

/-- R160: a byte that completes the reply is stored, whatever the tick. -/
theorem receiveByte_of_complete {s : State} {old : List Byte} {b : Byte} (hroom : rxFull s = false)
    (hold : rxBytes s = some old) (hdone : rxDone s.par.footerMatch (old ++ [b]) = true) :
    receiveByte b s = .next { storeByte b s with st := .txDleAck } := by
  rw [receiveByte_of_room hroom hold, if_pos hdone]

/-- R166: the completion predicate on the bytes before a footer byte, written out. -/
theorem rxDone_append_foot3_iff (fm : FooterMatch) (old : List Byte) :
    rxDone fm (old ++ [foot3]) = true ↔
      3 ≤ (old ++ [foot3]).length ∧ (old ++ [foot3])[0]? = some 0x01#8 ∧
      (old ++ [foot3])[(old ++ [foot3]).length - 2]? = some dle ∧
      (fm = .literal ∨ (old.reverse.takeWhile (· == dle)).length % 2 = 1) := by
  have hliteral := rxDone_literal_iff (old ++ [foot3])
  have hlast : (old ++ [foot3])[(old ++ [foot3]).length - 1]? = some foot3 := by simp
  have hrun : dleRun (old ++ [foot3]) = (old.reverse.takeWhile (· == dle)).length := by simp [dleRun]
  simp only [hlast, and_true] at hliteral
  cases fm with
  | literal => simp only [hliteral, true_or, and_true]
  | unpairedDle =>
    simp only [rxDone_unpairedDle, Bool.and_eq_true, hliteral, hrun, beq_iff_eq, reduceCtorEq, false_or, and_assoc]

end Sys2Proof.Laws
end

section
/-! O20, O21: the step against R151, and what it runs (log entry 1). -/

namespace Sys2Proof.Laws
open Sys2Proof Sys2Proof.Machine

/-- Settles O20: a reset cycle runs no rule, and the meaning of a code that a cycle handles is the rule of that cycle. -/
theorem stepAgreesWithCycleRules : Obligations.StepAgreesWithCycleRules := by
  intro s
  rw [cycle]
  split
  · next hrst => exact step_of_rst hrst
  · next hrst => exact step_eq_andThen_rule (by simpa using hrst)

/-- Settles O21: the code presented is fetched as the instruction it decodes to. -/
theorem stepRunsDecodedInstruction : Obligations.StepRunsDecodedInstruction := by
  intro s c i hrst hc hd
  have hfetch : fetch s = some i := fetch_eq_some.2 ⟨c, hc, hd⟩
  rw [step, if_neg (by simp [hrst]), hfetch]

end Sys2Proof.Laws
end

section
/-! O26 to O30, O34, O49: the sending states (R154, R156, R159, R163, R170), and the reply that is judged with the final DLE
(R173). -/

namespace Sys2Proof.Laws
open Sys2Proof Sys2Proof.Machine

/-- Settles O30: without `tx_ready` nothing is sent, and the rule of the state waits. -/
theorem sendingWaitsWithoutLimit : Obligations.SendingWaitsWithoutLimit := by
  intro s hsends hrst hready
  exact endsWith_of_rule hrst (by simp [sent, hready]) (rule_of_not_txReady hsends hready)

/-- Settles O26: R38's outputs and the meaning of R154; the wait is O30's. -/
theorem stxIsSentInTxStx : Obligations.StxIsSentInTxStx := by
  intro s hst
  refine ⟨(txValid_iff s).2 (.inl hst), txData_of_txStx hst, ?_, sendingWaitsWithoutLimit s (by rw [hst]; rfl)⟩
  simp only [exec, execCtlStxOut, hst, stxSent]

/-- Settles O28: R38's outputs and the meaning of R159; the wait is O30's. -/
theorem dleRequestStartsReceiving : Obligations.DleRequestStartsReceiving := by
  intro s hst
  refine ⟨(txValid_iff s).2 (.inr (.inr (.inl hst))), txData_of_sendsDle (.inl hst), ?_,
    sendingWaitsWithoutLimit s (by rw [hst]; rfl)⟩
  simp only [exec, execCtlDleReq, hst, requestSent]

/-- R156, log entry 12: in TX_FRAME each code of the frame means that one byte is sent. -/
theorem exec_of_beingSent {i : Instr} {s : State} (hst : s.st = .txFrame) (hi : beingSent i s) :
    exec i s = .next (frameByteSent s) := by
  cases i <;> simp only [beingSent] at hi
  case frmGetReq => simp only [exec, execFrmGetReq, hst, if_pos hi]
  case frmSetReq => simp only [exec, execFrmSetReq, hst, if_pos hi]
  case escDle => simp only [exec, execEscDle, hst, if_pos hi]
  case esc2B => simp only [exec, execEsc2B, hst, if_pos hi]
  case footer => simp only [exec, execFooter, hst, if_pos hi]

/-- Settles O27: every code of the frame is `frameByteSent`, which goes to W_ECHO after the last byte only. -/
theorem frameCodesSendOneByte : Obligations.FrameCodesSendOneByte := by
  intro i s hst hi
  rw [exec_of_beingSent hst hi]
  refine ⟨(txValid_iff s).2 (.inr (.inl hst)), txData_of_txFrame hst, fun hlast => ?_, fun hmore => ?_⟩
  · rw [frameByteSent, if_pos hlast]
  · rw [frameByteSent, if_neg hmore]

/-- R163: the final DLE judges whatever was received. -/
theorem exec_ctlDleAckOut_of_txDleAck {s : State} {raw : List Byte} (hst : s.st = .txDleAck)
    (hraw : rxBytes s = some raw) : exec .ctlDleAckOut s = finish (parse raw) s := by
  simp only [exec, execCtlDleAckOut, hst, finishReply, hraw]

/-- Settles O29: the parse of the received bytes is finished with, and its data fits. -/
theorem finalDleFinishesWithParse : Obligations.FinalDleFinishesWithParse := by
  intro s raw hst hraw hfit
  rw [exec_ctlDleAckOut_of_txDleAck hst hraw, finish, if_pos hfit]
  exact ⟨(txValid_iff s).2 (.inr (.inr (.inr hst))), txData_of_sendsDle (.inr hst), rfl⟩

/-- R82, R131: a raw reply is read as an instruction only if it is long enough to have a header. -/
theorem decodeReply_ok {raw : List Byte} {i : Instr} (hd : decodeReply raw = .ok i) :
    ∃ h0 h1 rest, unescape raw = h0 :: h1 :: rest ∧ 3 ≤ rest.length ∧ i = decodeReplyBody h0 h1 rest := by
  rw [decodeReply] at hd
  split at hd
  · next h0 h1 rest hu =>
    split_ifs at hd with hlen
    cases hd
    exact ⟨h0, h1, rest, hu, hlen, rfl⟩
  · cases hd

/-- Settles O34: the reply that the decoder reads finishes with the parse of its bytes, as the final DLE does. -/
theorem finalDleAgreesWithReply : Obligations.FinalDleAgreesWithReply := by
  intro s raw i hst hraw hd
  obtain ⟨h0, h1, rest, hu, hlen, rfl⟩ := decodeReply_ok hd
  rw [exec_ctlDleAckOut_of_txDleAck hst hraw, exec_decodeReplyBody hst hu hlen]

/-- Settles O49: the cycle that sends the final DLE runs `finish`, which writes one code to both registers and goes to
DONE. -/
theorem parserResultsAreNotRetried : Obligations.ParserResultsAreNotRetried := by
  intro s u hst hrst hready hstep
  have hsent : sent s = true := by rw [sent_eq, hst, hready]; rfl
  rw [step_eq_andThen_rule hrst, rule_txDleAck_of_sent hst hsent, andThen_eq_next] at hstep
  obtain ⟨t, hfinish, hclose⟩ := hstep
  obtain ⟨raw, -, hfin⟩ := finishReply_next hfinish
  obtain ⟨-, rfl⟩ := finish_next hfin
  obtain ⟨out, -, rfl⟩ := closeCycle_next hclose
  exact ⟨rfl, rfl, rfl⟩

end Sys2Proof.Laws
end

section
/-! O35 to O41: the wait states of steps 1 and 2, the abort, and the tick of a cycle beside its byte (R155, R157, R158, R168,
R169, R171). -/

namespace Sys2Proof.Laws
open Sys2Proof Sys2Proof.Machine

/-- Settles O35: the meanings of R155 and R157 in their states. -/
theorem deviceAcknowledgesAdvance : Obligations.DeviceAcknowledgesAdvance := by
  intro s
  constructor <;> intro hst
  · simp only [exec, execCtlDleAckIn, hst, ackReceived]
  · simp only [exec, execCtlEchoStx, hst, echoComplete]

/-- Settles O38: the two cases of `abort`. -/
theorem abortRecordsAndRetries : Obligations.AbortRecordsAndRetries := by
  intro e k info s
  exact ⟨abort_retry, fun hlast => abort_last (Nat.not_le.2 hlast)⟩

/-- Settles O36: the `10` is `echoBegun`, whose tick counts in W_ECHO2; the `02` completes the step. -/
theorem splitDleStxKeepsOneWindow : Obligations.SplitDleStxKeepsOneWindow := by
  intro s
  have hbegun (hst : s.st = .wEcho) : exec .ctlEchoDleStx s = .next (echoBegun s) := by
    simp only [exec, execCtlEchoDleStx, hst]
  have hticks (hst : s.st = .wEcho) := countTick_split (exec .ctlEchoDleStx s = .next ·) (hbegun hst)
  refine ⟨fun hst => (hticks hst).1, fun hst => (hticks hst).2.1, fun hst => (hticks hst).2.2, fun hst => ?_⟩
  simp only [exec, execCtlEchoDleStx, hst, echoComplete]

/-- R155, R157, R158: a NAK in steps 1 and 2. -/
theorem exec_ctlNak {s : State} (hst : s.st = .wAck ∨ s.st = .wEcho ∨ s.st = .wEcho2) :
    exec .ctlNak s =
      .next (abort .handshakeRejected (if s.st = .wAck then .step1 else .step2) 0x0015#16 s) := by
  have hinfo : byteInfo nak = 0x0015#16 := rfl
  obtain hst | hst | hst := hst <;> simp [exec, execCtlNak, hst, rejectByte, hinfo]

/-- Settles O37: the NAK is an abort, whose two cases are O38's. -/
theorem nakRejectsTheAttempt : Obligations.NakRejectsTheAttempt := by
  intro s hst k
  obtain ⟨hretry, hlast⟩ := abortRecordsAndRetries .handshakeRejected k 0x0015#16 s
  rw [exec_ctlNak hst]
  exact ⟨fun h => congrArg _ (hretry h), fun h => congrArg _ (hlast h)⟩

/-- Settles O39: the rule of each of the three states rejects a byte that it does not name. -/
theorem otherByteRejectsTheAttempt : Obligations.OtherByteRejectsTheAttempt := by
  intro s b hrst hgot
  refine ⟨fun hst hdle => ?wAck, fun hst hstx hdle => ?wEcho, fun hst hstx => ?wEcho2⟩ <;>
    apply endsWith_of_byte hrst hgot
  case wAck => exact (rule_wAck_of_byte hst hgot).trans (if_neg hdle)
  case wEcho => exact (rule_wEcho_of_byte hst hgot).trans ((if_neg hstx).trans (if_neg hdle))
  case wEcho2 => exact (rule_wEcho2_of_byte hst hgot).trans (if_neg hstx)

/-- Settles O40: without a byte each wait state is `countTick` with its own limit, step and detail. -/
theorem ticksTimeAWaitOut : Obligations.TicksTimeAWaitOut := by
  intro s limit k info hrst hgot htimed
  have hwaits : s.st.waits = true := waits_of_timedAs htimed
  exact countTick_split (endsWith s) <|
    endsWith_of_rule hrst (sent_of_not_sends (sends_eq_false_of_waits hwaits)) (rule_of_no_byte htimed hgot)

/-- R171: an abort reads no input. -/
theorem abort_withTick (e : Result) (k : ErrStep) (info : BitVec 16) (s : State) (x : Bool) :
    abort e k info (s.withTick x) = (abort e k info s).withTick x := by
  simp only [abort, apply_ite (State.withTick · x)]
  rfl

/-- R169: a byte that leaves its step is handled in the same way with and without a tick. -/
theorem rule_withTick_of_byteLeavesStep {s : State} {b : Byte} (hgot : got s = some b) (hleaves : byteLeavesStep s b)
    (x : Bool) : ∃ t, rule s = .next t ∧ rule (s.withTick x) = .next (t.withTick x) := by
  have hgot' : got (s.withTick x) = some b := hgot
  have hreject (k : ErrStep) : rejectByte k b (s.withTick x) = (rejectByte k b s).withTick x := abort_withTick ..
  obtain hst | ⟨hst, hdle⟩ | hst | ⟨hst, hrx⟩ := hleaves
  · rw [rule_wAck_of_byte hst hgot, rule_wAck_of_byte (s := s.withTick x) hst hgot', hreject]
    split <;> exact ⟨_, rfl, rfl⟩
  · rw [rule_wEcho_of_byte hst hgot, rule_wEcho_of_byte (s := s.withTick x) hst hgot', if_neg hdle, if_neg hdle, hreject]
    split <;> exact ⟨_, rfl, rfl⟩
  · rw [rule_wEcho2_of_byte hst hgot, rule_wEcho2_of_byte (s := s.withTick x) hst hgot', hreject]
    split <;> exact ⟨_, rfl, rfl⟩
  · rw [rule_rx_of_byte hst hgot, rule_rx_of_byte (s := s.withTick x) hst hgot']
    cases hroom : rxFull s
    case true =>
      have hfull : s.par.maxRx ≤ s.rxLen := rxFull_eq_true_iff.1 hroom
      refine ⟨_, receiveByte_of_full hfull b, (receiveByte_of_full (s := s.withTick x) hfull b).trans ?_⟩
      exact congrArg _ (abort_withTick .handshakeTimeout .step3 _ { s with rxOvf := true } x)
    case false =>
      obtain ⟨old, hold, hdone⟩ := hrx.resolve_left (by simp [hroom])
      exact ⟨_, receiveByte_of_complete hroom hold hdone,
        receiveByte_of_complete (s := s.withTick x) hroom hold hdone⟩

/-- R168, R169: a cycle that goes on with a tick counts it. -/
theorem endsWith_count {s t : State} {limit : Nat} {k : ErrStep} {info : BitVec 16} (htick : t.inp.tick = true)
    (h : endsWith s (countTick limit k info t)) : endsWith s (count limit k info t) := by
  rwa [countTick, if_pos htick] at h

/-- Settles O41: in a reset cycle no rule runs; a byte that leaves its step is handled alike, and closing the cycle drops the
tick; any other byte leaves the tick to `countTick`. -/
theorem byteIsHandledBeforeTick : Obligations.ByteIsHandledBeforeTick := by
  intro s b hgot
  refine ⟨fun hleaves x => ?leaves, fun hrst hst hdle htick => ?echo, fun old hrst hst hroom hold hdone htick => ?rx⟩
  case leaves =>
    cases hrst : s.inp.rst
    case true =>
      rw [step_of_rst hrst, step_of_rst (s := s.withTick x) hrst]
      rfl
    case false =>
      obtain ⟨t, ht, ht'⟩ := rule_withTick_of_byteLeavesStep hgot hleaves x
      rw [step_eq_andThen_rule hrst, step_eq_andThen_rule (s := s.withTick x) hrst, ht, ht']
      rfl
  case echo =>
    have hbegun : rule s = .next (echoBegun s) := by
      rw [rule_wEcho_of_byte hst hgot, hdle]
      rfl
    exact endsWith_count (t := { s with st := .wEcho2 }) htick (endsWith_of_byte hrst hgot hbegun)
  case rx =>
    have hstored := (rule_rx_of_byte hst hgot).trans (receiveByte_of_incomplete hroom hold hdone)
    exact endsWith_count (t := storeByte b s) htick (endsWith_of_byte hrst hgot hstored)

end Sys2Proof.Laws
end

section
/-! O42 to O45: step 3 (R160 to R162, R166). The escape codes, the footer and any byte that arrives are one `receiveByte`. -/

namespace Sys2Proof.Laws
open Sys2Proof Sys2Proof.Machine

/-- R166: no byte but `03` completes a reply. -/
theorem rxDone_eq_false_of_ne_foot3 (fm : FooterMatch) (old : List Byte) {b : Byte} (hb : b ≠ foot3) :
    rxDone fm (old ++ [b]) = false := Bool.eq_false_iff.2 fun h => hb (eq_foot3_of_rxDone h)

/-- Log entry 12: in RX the codes mean the arrival of their last byte. -/
theorem exec_pair_of_rx {s : State} (hst : s.st = .rx) :
    exec .escDle s = receiveByte dle s ∧ exec .esc2B s = receiveByte esc18 s ∧ exec .footer s = receiveByte foot3 s := by
  simp only [exec, execEscDle, execEsc2B, execFooter, hst, and_self]

/-- Settles O42: neither second byte is `03`, so the byte is stored and the tick counts. -/
theorem escapePairsAreStoredRaw : Obligations.EscapePairsAreStoredRaw := by
  intro i b s old hi hst hroom hold stored info
  obtain ⟨hdle, h2b, -⟩ := exec_pair_of_rx hst
  obtain ⟨hexec, hb⟩ : exec i s = receiveByte b s ∧ b ≠ foot3 := by
    obtain ⟨rfl, rfl⟩ | ⟨rfl, rfl⟩ := hi
    · exact ⟨hdle, by decide⟩
    · exact ⟨h2b, by decide⟩
  have hstored := receiveByte_of_incomplete (rxFull_eq_false_iff.2 hroom) hold (rxDone_eq_false_of_ne_foot3 _ old hb)
  exact countTick_split (exec i s = .next ·) (hexec.trans hstored)

/-- Settles O43: the completion predicate decides between the end of the reply and the tick. -/
theorem footerEndsTheReply : Obligations.FooterEndsTheReply := by
  intro s old hst hroom hold raw stored info ends
  obtain ⟨-, -, hexec⟩ := exec_pair_of_rx hst
  have hspace : rxFull s = false := rxFull_eq_false_iff.2 hroom
  have hiff : rxDone s.par.footerMatch (old ++ [foot3]) = true ↔ ends := rxDone_append_foot3_iff _ old
  refine ⟨fun hends => hexec.trans (receiveByte_of_complete hspace hold (hiff.2 hends)), ?_⟩
  have hticks (hends : ¬ ends) := countTick_split (exec .footer s = .next ·)
    (hexec.trans (receiveByte_of_incomplete hspace hold (Bool.eq_false_iff.2 (mt hiff.1 hends))))
  exact ⟨fun hends => (hticks hends).1, fun hends => (hticks hends).2.1, fun hends => (hticks hends).2.2⟩

/-- Settles O44: whatever the byte, a full buffer ends the attempt. -/
theorem overflowEndsTheAttempt : Obligations.OverflowEndsTheAttempt := by
  intro s hst hfull info ended
  have hbyte : ∀ b, receiveByte b s = .next ended := receiveByte_of_full hfull
  obtain ⟨hdle, h2b, hfoot⟩ := exec_pair_of_rx hst
  constructor
  · rintro i (rfl | rfl | rfl)
    · exact hdle.trans (hbyte dle)
    · exact h2b.trans (hbyte esc18)
    · exact hfoot.trans (hbyte foot3)
  · exact fun b hrst hgot => endsWith_of_byte hrst hgot ((rule_rx_of_byte hst hgot).trans (hbyte b))

/-- Settles O45: the rule of RX for a byte with room, complete or not. -/
theorem rxStoresEveryByte : Obligations.RxStoresEveryByte := by
  intro s b old hrst hst hgot hroom hold stored info
  have hspace : rxFull s = false := rxFull_eq_false_iff.2 hroom
  have hends {t : State} (h : receiveByte b s = .next t) : endsWith s t :=
    endsWith_of_byte hrst hgot ((rule_rx_of_byte hst hgot).trans h)
  exact ⟨fun hdone => hends (receiveByte_of_complete hspace hold hdone),
    fun hdone => countTick_split (endsWith s) (hends (receiveByte_of_incomplete hspace hold hdone))⟩

end Sys2Proof.Laws
end

section
/-! O46, O48, O53: the retry (R164, R165), the result that is held (R167, R232), and the bytes that wait in the channel
(R175). -/

namespace Sys2Proof.Laws
open Sys2Proof Sys2Proof.Machine

/-- R164. -/
theorem rule_of_retryWait {s : State} (hst : s.st = .retryWait) :
    rule s = if s.inp.tick then .next (delayTick s) else .next s := by
  simp only [rule, hst, ruleRetryWait]

/-- R167. -/
theorem rule_of_done {s : State} (hst : s.st = .done) :
    rule s = .next (if s.inp.respAck then { s with st := .idle } else s) := by
  simp only [rule, hst, ruleDone]
  split <;> rfl

/-- R152: IDLE waits for a request. -/
theorem rule_of_idle_no_request {s : State} (hst : s.st = .idle) (hreq : s.inp.reqValid = false) : rule s = .next s := by
  simp [rule, hst, ruleIdle, hreq]

/-- Settles O46: the rules of RETRY_WAIT and FLUSH, in which nothing is sent. -/
theorem retryWaitThenFlushRestarts : Obligations.RetryWaitThenFlushRestarts := by
  intro s hrst
  have hdelay {t : State} (hst : s.st = .retryWait) (h : rule s = .next t) : endsWith s t :=
    endsWith_of_rule hrst (sent_of_not_sends (by rw [hst]; rfl)) h
  refine ⟨fun hst htick => hdelay hst ?_, fun hst htick hlt => hdelay hst ?_, fun hst htick hle => hdelay hst ?_,
    fun hst => ?_⟩
  · rw [rule_of_retryWait hst, if_neg (by simp [htick])]
  · rw [rule_of_retryWait hst, if_pos htick, delayTick, if_neg (by omega)]
  · rw [rule_of_retryWait hst, if_pos htick, delayTick, if_pos hle]
  · exact endsWith_of_rule hrst (sent_of_not_sends (by rw [hst]; rfl)) (rule_of_flush hst)

/-- Settles O48: the rules of DONE and of IDLE without a request, in which nothing is sent. -/
theorem resultIsHeldUntilAcknowledged : Obligations.ResultIsHeldUntilAcknowledged := by
  intro s hrst
  refine ⟨fun hst => ⟨(respValid_iff s).2 hst, ?_⟩, fun hst hreq => ?_⟩
  · exact endsWith_of_rule hrst (sent_of_not_sends (by rw [hst]; rfl)) (rule_of_done hst)
  · exact endsWith_of_rule hrst (sent_of_not_sends (by rw [hst]; rfl)) (rule_of_idle_no_request hst hreq)

/-- R38, R175: outside the wait states no byte is received. -/
theorem got_of_not_waits {s : State} (hwaits : s.st.waits = false) : got s = none := by
  rw [got, if_neg (by simp [rxReady_eq_waits, hwaits])]

/-- Settles O53: closing the cycle takes from the channel only the byte received, or everything in FLUSH. -/
theorem untakenBytesStayInTheChannel : Obligations.UntakenBytesStayInTheChannel := by
  intro s u hwaits hflush hstep
  obtain ⟨t, hclose, -⟩ := step_next hstep
  obtain ⟨out, -, rfl⟩ := closeCycle_next hclose
  refine ⟨(rxReady_eq_waits s).trans hwaits, (chRxNext_of_not_flush hflush).trans ?_⟩
  rw [got_of_not_waits hwaits]
  rfl

end Sys2Proof.Laws
end

section
/-! O59, O60: every request ends (R174, R235). A lively cycle that does not restart the attempt lowers what the attempt may
still cost; FLUSH spends one of the attempts that remain, whose cost is more than that of the rest. -/

namespace Sys2Proof.Laws
open Sys2Proof Sys2Proof.Machine

/-! ### What a rule leaves of a request in flight -/

/-- R223: no rule writes a parameter. -/
theorem par_of_rule {s t : State} (h : rule s = .next t) : t.par = s.par := by
  cases rule_next h with
  | wait | accept | refuse | stxSent | ackReceived | echoComplete | requestSent | retryRestart | releaseResult => rfl
  | frameByteSent => obtain ⟨-, h⟩ | ⟨-, h⟩ := frameByteSent_cases s <;> rw [h]
  | delayTick => obtain ⟨-, h⟩ | ⟨-, h⟩ := delayTick_cases s <;> rw [h]
  | echoBegun => exact countTick_par _ _ _ { s with st := .wEcho2 }
  | rejectByte => exact abort_par ..
  | countTick => exact countTick_par ..
  | receiveByte b _ _ ht =>
    obtain ⟨-, rfl⟩ | ⟨-, old, -, ⟨-, rfl⟩ | ⟨-, rfl⟩⟩ := receiveByte_next ht
    · exact abort_par _ _ _ { s with rxOvf := true }
    · rfl
    · exact countTick_par _ _ _ (storeByte b s)
  | finishReply _ _ ht =>
    obtain ⟨raw, -, hfin⟩ := finishReply_next ht
    obtain ⟨-, rfl⟩ := finish_next hfin
    rfl

/-- R171: an attempt does not end in IDLE. -/
theorem abort_st_ne_idle (e : Result) (k : ErrStep) (info : BitVec 16) (s : State) : (abort e k info s).st ≠ .idle := by
  obtain ⟨-, h⟩ | ⟨-, h⟩ := abort_cases e k info s <;> rw [h] <;> nofun

/-- R168: nor does a tick. -/
theorem countTick_st_ne_idle {limit : Nat} {k : ErrStep} {info : BitVec 16} {s : State} (hst : s.st ≠ .idle) :
    (countTick limit k info s).st ≠ .idle := by
  obtain ⟨-, h⟩ | ⟨-, -, h⟩ | ⟨-, -, h⟩ := countTick_cases limit k info s <;> rw [h]
  · exact hst
  · exact abort_st_ne_idle _ _ _ _
  · exact hst

theorem ne_idle_of_inFlight {x : St} (h : x.inFlight = true) : x ≠ .idle := by
  rintro rfl
  cases h

/-- R167: only DONE goes to IDLE, so a request in flight does not. -/
theorem st_ne_idle_of_rule {s t : State} (hflight : s.st.inFlight = true) (h : rule s = .next t) : t.st ≠ .idle := by
  have hidle : s.st ≠ .idle := ne_idle_of_inFlight hflight
  cases rule_next h with
  | wait => exact hidle
  | accept | refuse | stxSent | ackReceived | echoComplete | requestSent | retryRestart => nofun
  | frameByteSent =>
    obtain ⟨-, h⟩ | ⟨-, h⟩ := frameByteSent_cases s <;> rw [h]
    · nofun
    · exact hidle
  | delayTick =>
    obtain ⟨-, h⟩ | ⟨-, h⟩ := delayTick_cases s <;> rw [h]
    · nofun
    · exact hidle
  | echoBegun => exact countTick_st_ne_idle (s := { s with st := .wEcho2 }) nofun
  | rejectByte => exact abort_st_ne_idle _ _ _ _
  | countTick => exact countTick_st_ne_idle hidle
  | receiveByte b _ _ ht =>
    obtain ⟨-, rfl⟩ | ⟨-, old, -, ⟨-, rfl⟩ | ⟨-, rfl⟩⟩ := receiveByte_next ht
    · exact abort_st_ne_idle _ _ _ _
    · nofun
    · exact countTick_st_ne_idle (s := storeByte b s) hidle
  | finishReply _ _ ht =>
    obtain ⟨raw, -, hfin⟩ := finishReply_next ht
    obtain ⟨-, rfl⟩ := finish_next hfin
    nofun
  | releaseResult hst => rw [hst] at hflight; cases hflight

/-! ### The cost of an attempt -/

/-- R164, R171: after an abort only the delay is left, or nothing. -/
theorem attemptCost_abort_le (e : Result) (k : ErrStep) (info : BitVec 16) (s : State) :
    attemptCost (abort e k info s) ≤ s.par.tDelay := by
  obtain ⟨-, h⟩ | ⟨-, h⟩ := abort_cases e k info s <;> rw [h] <;> simp [attemptCost]

/-- An attempt that waits for the device may still cost more than the delay after it. -/
theorem tDelay_lt_attemptCost {s : State} (hwaits : s.st.waits = true) : s.par.tDelay < attemptCost s := by
  cases hst : s.st
  case wAck | wEcho | wEcho2 | rx => simp only [attemptCost, hst]; omega
  all_goals rw [hst] at hwaits; cases hwaits

/-- R155, R157, R158, R161: an attempt that ends in a wait state costs less afterwards. -/
theorem attemptCost_abort_lt {s : State} (hwaits : s.st.waits = true) (e : Result) (k : ErrStep) (info : BitVec 16) :
    attemptCost (abort e k info s) < attemptCost s :=
  (attemptCost_abort_le e k info s).trans_lt (tDelay_lt_attemptCost hwaits)

/-- R168: a tick of a wait state is one less to wait, or the end of the attempt. -/
theorem attemptCost_countTick_lt {s : State} {limit : Nat} (hwaits : s.st.waits = true) (htick : s.inp.tick = true)
    (hlimit : timerLimit s.par s.st = some limit) (k : ErrStep) (info : BitVec 16) :
    attemptCost (countTick limit k info s) < attemptCost s := by
  obtain ⟨hnone, -⟩ | ⟨-, -, h⟩ | ⟨-, hbelow, h⟩ := countTick_cases limit k info s
  · simp [htick] at hnone
  · rw [h]; exact attemptCost_abort_lt hwaits ..
  · rw [h]
    cases hst : s.st
    case wAck | wEcho | wEcho2 | rx =>
      rw [hst] at hlimit
      cases hlimit
      simp only [attemptCost, hst]
      omega
    all_goals rw [hst] at hwaits; cases hwaits

/-- R174: a sending state with `tx_ready` sends its byte, which is one step of the attempt. -/
theorem attemptCost_lt_of_sends {s t : State} (hs : Invariant s) (hsends : s.st.sends = true) (hsent : sent s = true)
    (h : rule s = .next t) : attemptCost t < attemptCost s := by
  cases hst : s.st
  case txStx =>
    rw [rule_txStx_of_sent hst hsent] at h
    cases h
    simp [attemptCost, hst]
  case txFrame =>
    rw [rule_txFrame_of_sent hst hsent] at h
    cases h
    have hidx := hs.idxInFrame hst
    obtain ⟨-, h⟩ | ⟨-, h⟩ := frameByteSent_cases s <;> rw [h] <;> simp only [attemptCost, hst] <;> omega
  case txDleReq =>
    rw [rule_txDleReq_of_sent hst hsent] at h
    cases h
    simp [attemptCost, hst]
  case txDleAck =>
    rw [rule_txDleAck_of_sent hst hsent] at h
    obtain ⟨raw, -, hfin⟩ := finishReply_next h
    obtain ⟨-, rfl⟩ := finish_next hfin
    simp [attemptCost, hst]
  all_goals rw [hst] at hsends; cases hsends

/-- R160 to R162: a byte in RX completes the reply, or leaves the tick to be counted, or ends the attempt. -/
theorem attemptCost_receiveByte_lt {s t : State} {b : Byte} (hs : Invariant s) (hst : s.st = .rx)
    (htick : s.inp.tick = true) (h : receiveByte b s = .next t) : attemptCost t < attemptCost s := by
  have hwaits : s.st.waits = true := by rw [hst]; rfl
  have htimer := hs.timerBelow s.par.tRx (by rw [hst]; rfl)
  obtain ⟨-, rfl⟩ | ⟨-, old, -, ⟨-, rfl⟩ | ⟨-, rfl⟩⟩ := receiveByte_next h
  · exact attemptCost_abort_lt (s := { s with rxOvf := true }) hwaits ..
  · simp only [attemptCost, hst, storeByte_par]
    omega
  · exact attemptCost_countTick_lt (s := storeByte b s) hwaits htick (by rw [storeByte_st, storeByte_par, hst]; rfl) ..

/-- R157: the `10` of a split acknowledgement leaves the tick to be counted in the same window. -/
theorem attemptCost_echoBegun_lt {s : State} (hst : s.st = .wEcho) (htick : s.inp.tick = true) :
    attemptCost (echoBegun s) < attemptCost s :=
  calc attemptCost (echoBegun s)
      < attemptCost { s with st := .wEcho2 } := attemptCost_countTick_lt (s := { s with st := .wEcho2 }) rfl htick rfl ..
    _ = attemptCost s := by simp only [attemptCost, hst]

/-- R157, R158: the step that follows begins before this one's limit. -/
theorem attemptCost_echoComplete_lt {s : State} (hs : Invariant s) (hst : s.st = .wEcho ∨ s.st = .wEcho2) :
    attemptCost (echoComplete s) < attemptCost s := by
  have htimer : s.timer < s.par.tEcho := hs.timerBelow s.par.tEcho (by obtain hst | hst := hst <;> rw [hst] <;> rfl)
  obtain hst | hst := hst <;> simp only [attemptCost, hst, echoComplete_st, echoComplete_par] <;> omega

/-- R174: a wait state with a tick goes on, counts the tick or ends the attempt. -/
theorem attemptCost_lt_of_waits {s t : State} (hs : Invariant s) (hwaits : s.st.waits = true) (htick : s.inp.tick = true)
    (h : rule s = .next t) : attemptCost t < attemptCost s := by
  cases hgot : got s with
  | none =>
    obtain ⟨limit, k, info, htimed, hlimit⟩ := timedAs_of_waits hwaits
    rw [rule_of_no_byte htimed hgot] at h
    cases h
    exact attemptCost_countTick_lt hwaits htick hlimit k info
  | some b =>
    cases hst : s.st
    case wAck =>
      have htimer := hs.timerBelow s.par.tAck (by rw [hst]; rfl)
      rw [rule_wAck_of_byte hst hgot] at h
      split at h <;> cases h
      · simp only [attemptCost, hst, ackReceived_st, ackReceived_par, ackReceived_txfLen, ackReceived_txIdx]
        omega
      · exact attemptCost_abort_lt hwaits ..
    case wEcho =>
      rw [rule_wEcho_of_byte hst hgot] at h
      split_ifs at h <;> cases h
      · exact attemptCost_echoComplete_lt hs (.inl hst)
      · exact attemptCost_echoBegun_lt hst htick
      · exact attemptCost_abort_lt hwaits ..
    case wEcho2 =>
      rw [rule_wEcho2_of_byte hst hgot] at h
      split at h <;> cases h
      · exact attemptCost_echoComplete_lt hs (.inr hst)
      · exact attemptCost_abort_lt hwaits ..
    case rx => exact attemptCost_receiveByte_lt hs hst htick ((rule_rx_of_byte hst hgot).symm.trans h)
    all_goals rw [hst] at hwaits; cases hwaits

/-- R164: a tick of the delay. -/
theorem attemptCost_delayTick_lt {s : State} (hs : Invariant s) (hst : s.st = .retryWait) :
    attemptCost (delayTick s) < attemptCost s := by
  have htimer := hs.timerBelow s.par.tDelay (by rw [hst]; rfl)
  obtain ⟨-, h⟩ | ⟨-, h⟩ := delayTick_cases s <;> rw [h] <;> simp only [attemptCost, hst] <;> omega

/-- A state of a request in flight sends, waits, delays the next attempt or begins it. -/
theorem inFlight_cases {x : St} (h : x.inFlight = true) :
    x.sends = true ∨ x.waits = true ∨ x = .retryWait ∨ x = .flush := by
  cases x <;> simp [St.inFlight, St.sends, St.waits] at h ⊢

/-- R174: a lively cycle of an attempt lowers what the attempt may still cost. -/
theorem attemptCost_lt_of_lively {s t : State} (hs : Invariant s) (hflight : s.st.inFlight = true) (hflush : s.st ≠ .flush)
    (htick : s.inp.tick = true) (hready : s.inp.txReady = true) (h : rule s = .next t) : attemptCost t < attemptCost s := by
  obtain hsends | hwaits | hst | hst := inFlight_cases hflight
  · exact attemptCost_lt_of_sends hs hsends (by rw [sent_eq, hsends, hready]; rfl) h
  · exact attemptCost_lt_of_waits hs hwaits htick h
  · rw [rule_of_retryWait hst, if_pos htick] at h
    cases h
    exact attemptCost_delayTick_lt hs hst
  · exact absurd hst hflush

/-! ### The cost of a request -/

theorem requestCost_of_inFlight {s : State} (hflight : s.st.inFlight = true) :
    requestCost s =
      (s.par.nRetry + 1 - s.attempt) * (s.par.tDelay + s.par.tRx + s.par.tEcho + s.txfLen + s.par.tAck + 4) +
        attemptCost s + 1 := if_pos hflight

/-- A request that is at its end costs nothing more. -/
theorem requestCost_of_not_inFlight {s : State} (hflight : s.st.inFlight = false) : requestCost s = 0 :=
  if_neg (by simp [hflight])

theorem requestCost_pos {s : State} (hflight : s.st.inFlight = true) : 0 < requestCost s := by
  rw [requestCost_of_inFlight hflight]
  omega

/-- Within an attempt the cost of the request goes down with the cost of the attempt. -/
theorem requestCost_lt_of_attemptCost_lt {s t : State} (hflight : s.st.inFlight = true) (hpar : t.par = s.par)
    (hframe : sameFrame s t) (hcost : attemptCost t < attemptCost s) : requestCost t < requestCost s := by
  obtain ⟨-, hlen, hattempt⟩ := hframe
  cases hend : t.st.inFlight
  · rw [requestCost_of_not_inFlight hend]
    exact requestCost_pos hflight
  · rw [requestCost_of_inFlight hend, requestCost_of_inFlight hflight, hpar, hlen, hattempt]
    omega

/-- R165, R172: FLUSH takes one of the attempts that remain, which costs what a whole attempt may cost. -/
theorem requestCost_retryRestart_lt {s : State} (hs : Invariant s) (hst : s.st = .flush) :
    requestCost (retryRestart s) < requestCost s := by
  have hretry : s.attempt ≤ s.par.nRetry := hs.retryRemains (.inr hst)
  obtain ⟨n, hn⟩ : ∃ n, s.par.nRetry = s.attempt + n := ⟨s.par.nRetry - s.attempt, by omega⟩
  have hbefore : s.par.nRetry + 1 - s.attempt = n + 1 := by omega
  have hafter : s.par.nRetry + 1 - (s.attempt + 1) = n := by omega
  rw [requestCost_of_inFlight (s := retryRestart s) rfl, requestCost_of_inFlight (s := s) (by rw [hst]; rfl)]
  simp only [attemptCost, hst, retryRestart_st, retryRestart_par, retryRestart_txfLen, retryRestart_attempt, hbefore, hafter,
    Nat.succ_mul]
  omega

/-- R174: a rule that runs in a lively cycle brings a request in flight closer to its end. -/
theorem requestCost_rule_lt {s t : State} (hs : Invariant s) (hflight : s.st.inFlight = true)
    (htick : s.inp.tick = true) (hready : s.inp.txReady = true) (h : rule s = .next t) :
    requestCost t < requestCost s := by
  by_cases hflush : s.st = .flush
  · rw [rule_of_flush hflush] at h
    cases h
    exact requestCost_retryRestart_lt hs hflush
  · have hidle : s.st ≠ .idle := ne_idle_of_inFlight hflight
    exact requestCost_lt_of_attemptCost_lt hflight (par_of_rule h) (sameFrame_rule hidle hflush h)
      (attemptCost_lt_of_lively hs hflight hflush htick hready h)

theorem lively_iff {i : Inputs} : i.lively = true ↔ i.rst = false ∧ i.tick = true ∧ i.txReady = true := by
  simp [Inputs.lively, and_assoc]

/-- Settles O59: the rule lowers the cost, and closing the cycle writes no register that the cost reads. -/
theorem livelyCycleLowersRequestCost : Obligations.LivelyCycleLowersRequestCost := by
  intro s u hs hflight hlively hstep
  obtain ⟨hrst, htick, hready⟩ := lively_iff.1 hlively
  rw [step_eq_andThen_rule hrst, andThen_eq_next] at hstep
  obtain ⟨t, hrule, hclose⟩ := hstep
  obtain ⟨out, -, rfl⟩ := closeCycle_next hclose
  have hlower : requestCost t < requestCost s := requestCost_rule_lt hs hflight htick hready hrule
  exact hlower

/-! ### A whole request -/

/-- A request in flight does not read the request port (R65), so under the invariant each of its cycles completes. -/
theorem step_completes_of_inFlight {s : State} (hs : Invariant s) (hflight : s.st.inFlight = true) :
    ∃ t, step s = .next t := by
  have hidle : s.st ≠ .idle := ne_idle_of_inFlight hflight
  have hdriven : busDriven (s.withReq Inputs.quiet.req) = true := by simp [busDriven, Inputs.quiet]
  obtain ⟨-, hcompletes⟩ := invariantStepsComplete (s.withReq Inputs.quiet.req) { hs with }
  rw [← requestInputsMatterOnlyAtAcceptance s Inputs.quiet.req (.inl hidle)]
  exact hcompletes hdriven

/-- R151: a step without reset moves the inputs on, and takes a request in flight no further than DONE. -/
theorem step_of_inFlight {s u : State} (hflight : s.st.inFlight = true) (hrst : s.inp.rst = false)
    (hstep : step s = .next u) : u.env = s.env.drop 1 ∧ (u.st.inFlight = true ∨ u.st = .done) := by
  rw [step_eq_andThen_rule hrst, andThen_eq_next] at hstep
  obtain ⟨t, hrule, hclose⟩ := hstep
  have hidle : t.st ≠ .idle := st_ne_idle_of_rule hflight hrule
  obtain ⟨out, -, rfl⟩ := closeCycle_next hclose
  refine ⟨rfl, ?_⟩
  by_cases hdone : t.st = .done
  · exact .inr hdone
  · exact .inl (by simp [St.inFlight, hidle, hdone])

/-- One step first, then the rest of the run. -/
theorem run_succ_of_step {s t : State} (h : step s = .next t) (n : Nat) :
    Host.Core.run Sys2Proof.core (n + 1) s = Host.Core.run Sys2Proof.core n t := by
  have hcore : Sys2Proof.core.step s = .next t := h
  simp only [Host.Core.run, hcore]

/-- Settles O60, by induction on the cost of the request: each lively cycle completes, keeps the invariant, and lowers it. -/
theorem everyRequestReachesDone : Obligations.EveryRequestReachesDone := by
  intro s hs hflight hlively
  induction hcost : requestCost s using Nat.strong_induction_on generalizing s with
  | _ cost ih =>
    subst hcost
    have hnow : s.inp.lively = true := by
      have hfirst := hlively 0 (requestCost_pos hflight)
      rwa [List.getD_eq_getElem?_getD, ← List.head?_eq_getElem?, ← List.headD_eq_head?_getD] at hfirst
    obtain ⟨hrst, -, -⟩ := lively_iff.1 hnow
    obtain ⟨t, hstep⟩ := step_completes_of_inFlight hs hflight
    have ht : Invariant t := stepKeepsInvariant s t hs hstep
    have hlower : requestCost t < requestCost s := livelyCycleLowersRequestCost s t hs hflight hnow hstep
    obtain ⟨henv, hgoes | hdone⟩ := step_of_inFlight hflight hrst hstep
    · have hrest : ∀ k, k < requestCost t → (t.env.getD k Inputs.quiet).lively = true := fun k hk => by
        have hlater := hlively (k + 1) (by omega)
        rwa [henv, List.getD_eq_getElem?_getD, List.getElem?_drop, Nat.add_comm 1 k, ← List.getD_eq_getElem?_getD]
      obtain ⟨n, u, hn, hrun, hend⟩ := ih (requestCost t) hlower t ht hgoes hrest rfl
      exact ⟨n + 1, u, by omega, (run_succ_of_step hstep n).trans hrun, hend⟩
    · exact ⟨1, t, by omega, run_succ_of_step hstep 0, hdone, ht.attemptFits⟩

end Sys2Proof.Laws
end

section
/-! O10, O11: where the receive step ends in a correct GET reply (R166, R226). A footer inside the frame begins at the second
byte of an escaped `10` and nowhere else (R104); there the run of `10` is even, since escaped `10` come in pairs. -/

namespace Sys2Proof.Laws
open Sys2Proof Sys2Proof.Machine

/-! ### The completion predicate -/

/-- R166 under LITERAL, as a shape: a first byte `01` and the footer last. -/
theorem rxDone_literal_iff_shape (s : List Byte) :
    rxDone .literal s = true ↔ ∃ y, s = 0x01#8 :: y ++ footerBytes := by
  rw [rxDone_literal_iff]
  constructor
  · rintro ⟨hlen, hfirst, hdle, hlast⟩
    obtain ⟨rest, b, rfl⟩ := List.eq_nil_or_concat' s |>.resolve_left (by rintro rfl; simp at hlen)
    obtain ⟨rest, a, rfl⟩ := List.eq_nil_or_concat' rest |>.resolve_left (by rintro rfl; simp at hlen)
    cases rest with
    | nil => simp at hlen
    | cons c y => exact ⟨y, by simp_all [footerBytes]⟩
  · rintro ⟨y, rfl⟩
    simp [footerBytes]

/-- R166: a `10` lengthens the run before the last byte. -/
theorem dleRun_append_dle (s : List Byte) (b : Byte) : dleRun (s ++ [dle, b]) = dleRun (s ++ [b]) + 1 := by
  simp [dleRun]

/-- R166: the escape of a `10` keeps the parity of the run. -/
theorem dleRun_append_pair (s : List Byte) (b : Byte) : dleRun (s ++ [dle, dle, b]) = dleRun (s ++ [b]) + 2 := by
  simp [dleRun]

/-- R166: any other byte ends the run. -/
theorem dleRun_append_of_ne {a : Byte} (ha : a ≠ dle) (s : List Byte) (b : Byte) : dleRun (s ++ [a, b]) = 0 := by
  simp [dleRun, ha]

/-- R104: behind the header, the run of `10` at the end of an escaped sequence is made of whole pairs. -/
theorem dleRun_escape_even (r : List Byte) (b : Byte) : dleRun (hdrGet ++ escape r ++ [b]) % 2 = 0 := by
  induction r using List.reverseRecOn with
  | nil => simp [dleRun, hdrGet, dle]
  | append_singleton r a ih =>
    have hlast : hdrGet ++ escape (r ++ [a]) ++ [b] = hdrGet ++ escape r ++ (escapeByte a ++ [b]) := by
      simp [escape_append]
    rw [hlast]
    obtain ⟨rfl, hesc⟩ | ⟨rfl, hesc⟩ | ⟨hdle, -, hesc⟩ := escapeByte_cases a <;> rw [hesc]
    · show dleRun (hdrGet ++ escape r ++ [dle, dle, b]) % 2 = 0
      rw [dleRun_append_pair, Nat.add_mod_right, ih]
    · show dleRun (hdrGet ++ escape r ++ ([esc2b] ++ [esc18, b])) % 2 = 0
      rw [← List.append_assoc, dleRun_append_of_ne (by decide)]
    · show dleRun (hdrGet ++ escape r ++ [a, b]) % 2 = 0
      rw [dleRun_append_of_ne hdle]

/-! ### A footer inside the escape region -/

/-- R102: the escape of a byte begins with the byte. -/
theorem escapeByte_eq_cons (a : Byte) : ∃ t, escapeByte a = a :: t := by
  obtain ⟨rfl, h⟩ | ⟨rfl, h⟩ | ⟨-, -, h⟩ := escapeByte_cases a <;> exact ⟨_, h⟩

/-- R104: a footer that stands before the frame's own begins at the second byte of an escaped `10`, and the byte escaped next
is a `03`. -/
theorem early_footer_split {r y z : List Byte} (hz : z ≠ [])
    (h : escape r ++ footerBytes = y ++ (footerBytes ++ z)) :
    ∃ r₁ r₂, r = r₁ ++ dle :: foot3 :: r₂ ∧ y = escape r₁ ++ [dle] := by
  induction r generalizing y with
  | nil =>
    have hlen := congrArg List.length h
    have hpos := List.length_pos_of_ne_nil hz
    simp only [escape_nil, List.length_append, List.length_nil] at hlen
    omega
  | cons a r ih =>
    -- a footer behind the whole escape of `a` is one of the rest
    have later {y' : List Byte} (hy : y = escapeByte a ++ y')
        (hrest : escape r ++ footerBytes = y' ++ (footerBytes ++ z)) :
        ∃ r₁ r₂, a :: r = r₁ ++ dle :: foot3 :: r₂ ∧ y = escape r₁ ++ [dle] := by
      obtain ⟨r₁, r₂, rfl, rfl⟩ := ih hrest
      exact ⟨a :: r₁, r₂, rfl, by simp [hy]⟩
    rw [escape_cons, List.append_assoc] at h
    obtain ⟨rfl, hesc⟩ | ⟨rfl, hesc⟩ | ⟨hdle, -, hesc⟩ := escapeByte_cases a <;> rw [hesc] at h later
    · match y, h with
      | [], h => simp [footerBytes, dle, foot3] at h
      | [c], h =>
        obtain ⟨rfl, hnext⟩ : dle = c ∧ escape r ++ footerBytes = foot3 :: z := by simpa [footerBytes] using h
        cases r with
        | nil => simp [footerBytes, dle, foot3] at hnext
        | cons b r₂ =>
          obtain ⟨t, ht⟩ := escapeByte_eq_cons b
          obtain ⟨rfl, -⟩ : b = foot3 ∧ _ := by simpa [ht] using hnext
          exact ⟨[], r₂, rfl, rfl⟩
      | c :: d :: y', h =>
        obtain ⟨rfl, rfl, hrest⟩ : dle = c ∧ dle = d ∧ _ := by simpa using h
        exact later rfl hrest
    · match y, h with
      | [], h => simp [footerBytes, dle, esc2b] at h
      | [c], h => simp [footerBytes, dle, esc18] at h
      | c :: d :: y', h =>
        obtain ⟨rfl, rfl, hrest⟩ : esc2b = c ∧ esc18 = d ∧ _ := by simpa using h
        exact later rfl hrest
    · match y, h with
      | [], h => simp [footerBytes, hdle] at h
      | c :: y', h =>
        obtain ⟨rfl, hrest⟩ : a = c ∧ _ := by simpa using h
        exact later rfl hrest

/-! ### GET frames cut short -/

/-- R226: a GET frame cut short that completes under LITERAL ends inside the escape region, in the escape of a `10`
and a `03` that stand together. -/
theorem rxDone_literal_take {p : List Byte} {k : Nat} (hk : k < (build hdrGet p).length)
    (hdone : rxDone .literal ((build hdrGet p).take k) = true) :
    ∃ r₁ r₂, checksum (hdrGet ++ [0#8] ++ p) :: p = r₁ ++ dle :: foot3 :: r₂ ∧
      (build hdrGet p).take k = hdrGet ++ escape r₁ ++ dle :: footerBytes := by
  obtain ⟨y, hy⟩ := (rxDone_literal_iff_shape _).1 hdone
  have hz : (build hdrGet p).drop k ≠ [] := by simpa using hk
  have hsplit := List.take_append_drop k (build hdrGet p)
  rw [hy] at hsplit
  generalize (build hdrGet p).drop k = z at hz hsplit
  cases y with
  | nil => simp [build, hdrGet, footerBytes, dle] at hsplit
  | cons c y =>
    obtain ⟨rfl, hregion⟩ : c = 0x00#8 ∧
        y ++ (footerBytes ++ z) = escape (checksum (hdrGet ++ [0#8] ++ p) :: p) ++ footerBytes := by
      simpa [build, hdrGet] using hsplit
    obtain ⟨r₁, r₂, hr, rfl⟩ := early_footer_split hz hregion.symm
    exact ⟨r₁, r₂, hr, by rw [hy]; simp [hdrGet]⟩

/-- R166: the whole frame has the shape of a reply. -/
theorem rxDone_literal_build (p : List Byte) : rxDone .literal (build hdrGet p) = true :=
  (rxDone_literal_iff_shape _).2 ⟨0x00#8 :: escape (checksum (hdrGet ++ [0#8] ++ p) :: p), rfl⟩

/-- R104, R226: a `10` and a `03` that stand together in the escape region put a footer before the frame's own. -/
theorem build_of_dle_foot3 {p r₁ r₂ : List Byte}
    (h : checksum (hdrGet ++ [0#8] ++ p) :: p = r₁ ++ dle :: foot3 :: r₂) :
    build hdrGet p = (0x01#8 :: (0x00#8 :: escape r₁ ++ [dle]) ++ footerBytes) ++ (escape r₂ ++ footerBytes) := by
  have hdle : escapeByte dle = [dle, dle] := rfl
  have hfoot : escapeByte foot3 = [foot3] := rfl
  rw [build, h]
  simp [escape_append, hdle, hfoot, hdrGet, footerBytes]

/-- Settles O10: an early end gives the two bytes by `rxDone_literal_take`; the two bytes give one at the footer of
`build_of_dle_foot3`. -/
theorem falseFooterExactlyOnDle03 : Obligations.FalseFooterExactlyOnDle03 := by
  intro p
  refine ⟨rxDone_literal_build p, ?_, ?_⟩
  · rintro ⟨k, hk, hdone⟩
    obtain ⟨r₁, r₂, hr, -⟩ := rxDone_literal_take hk hdone
    exact ⟨r₁.length, by rw [hr]; simp [dle], by rw [hr]; simp [foot3]⟩
  · rintro ⟨i, hi, hnext⟩
    generalize hr : checksum (hdrGet ++ [0#8] ++ p) :: p = r at hi hnext
    obtain ⟨hlt, hi⟩ := List.getElem?_eq_some_iff.1 hi
    obtain ⟨hlt', hnext⟩ := List.getElem?_eq_some_iff.1 hnext
    have hpair : r = r.take i ++ dle :: foot3 :: r.drop (i + 2) := by
      rw [dle, foot3, ← hi, ← hnext, List.getElem_cons_drop, List.getElem_cons_drop, List.take_append_drop]
    have hbuild := build_of_dle_foot3 (hr.trans hpair)
    refine ⟨(0x01#8 :: (0x00#8 :: escape (r.take i) ++ [dle]) ++ footerBytes).length, ?_, ?_⟩
    · rw [hbuild, List.length_append]
      simp [footerBytes]
    · rw [hbuild, List.take_left]
      exact (rxDone_literal_iff_shape _).2 ⟨_, rfl⟩

/-- Settles O11: the frame's own `10` is one more than whole pairs; the `10` of an early footer is itself the second of its
pair. -/
theorem unpairedDleHasNoFalseFooter : Obligations.UnpairedDleHasNoFalseFooter := by
  intro p
  constructor
  · have heven := dleRun_escape_even (checksum (hdrGet ++ [0#8] ++ p) :: p) foot3
    have hrun : dleRun (build hdrGet p) % 2 = 1 := by
      rw [build, footerBytes, dleRun_append_dle]
      omega
    rw [rxDone_unpairedDle, rxDone_literal_build, hrun]
    rfl
  · intro k hk
    cases hdone : rxDone .literal ((build hdrGet p).take k)
    case false => rw [rxDone_unpairedDle, hdone, Bool.false_and]
    case true =>
      obtain ⟨r₁, r₂, -, htake⟩ := rxDone_literal_take hk hdone
      have heven := dleRun_escape_even r₁ foot3
      have hrun : dleRun ((build hdrGet p).take k) % 2 = 0 := by
        rw [htake, footerBytes, dleRun_append_pair, Nat.add_mod_right, heven]
      rw [rxDone_unpairedDle, hrun]
      exact Bool.and_false _

end Sys2Proof.Laws
end

section
/-! O16, O51: what a reset writes (R220), and the parameters, which no cycle writes (R223). -/

namespace Sys2Proof.Laws
open Sys2Proof Sys2Proof.Machine

/-- R220, R43: a reset puts every register at its value after reset. -/
theorem sameRegisters_resetBlock (s : State) : sameRegisters (resetBlock s) { State.reset with par := s.par } := by
  simp [sameRegisters, State.reset]

/-- R58, R64: what the channel holds after the cycle, in FLUSH and outside it. -/
theorem chRxNext_eq (s : State) :
    chRxNext s = (if s.st = .flush then [] else if (got s).isSome then s.chRx.tail else s.chRx) ++ s.inp.arrive := by
  by_cases hst : s.st = .flush
  · rw [chRxNext, if_pos ((chFlush_iff s).2 hst), if_pos hst]
  · rw [chRxNext_of_not_flush hst, if_neg hst]

/-- Settles O16: a reset cycle closes with the reset registers, and closing a cycle writes no register. -/
theorem resetCycleClearsRegisters : Obligations.ResetCycleClearsRegisters := by
  intro s hrst hdata
  exact ⟨_, (step_of_rst hrst).trans (closeCycle_eq hdata _), sameRegisters_resetBlock s, chRxNext_eq s⟩

/-- Settles O51: neither a reset nor a rule writes a parameter, nor does closing the cycle. -/
theorem parametersAreStatic : Obligations.ParametersAreStatic := by
  intro s u hstep
  cases hrst : s.inp.rst
  case true =>
    rw [step_of_rst hrst] at hstep
    obtain ⟨out, -, rfl⟩ := closeCycle_next hstep
    exact resetBlock_par s
  case false =>
    rw [step_eq_andThen_rule hrst, andThen_eq_next] at hstep
    obtain ⟨t, hrule, hclose⟩ := hstep
    obtain ⟨out, -, rfl⟩ := closeCycle_next hclose
    exact show t.par = s.par from par_of_rule hrule

end Sys2Proof.Laws
end
